-- ==== Sys2Proof/Word.lean ====
section
/-! DEFINITION. The word types and the two kinds of number that name a unit of the part. -/

namespace Sys2Proof

/-- One byte of host memory or of a line. -/
abbrev Byte := BitVec 8

/-- A 16-bit field of a layout (R192). -/
abbrev Half := BitVec 16

/-- A 32-bit register, house time, show time or counter. -/
abbrev Word := BitVec 32

/-- A 64-bit host memory address (R133). -/
abbrev Quad := BitVec 64

/-- An auditorium, 0 to 23 (00_scope.md, Conventions). -/
abbrev Aud := Fin 24

/-- A caption channel, 0 to 3 (00_scope.md, Conventions). -/
abbrev Channel := Fin 4

end Sys2Proof
end

