-- ==== Sys2Proof/Syntax.lean ====
section
/-! DEFINITION. The commands of the part: one constructor per row of spec/opcode_table.json. The table
gives the rows no operands. Each constructor carries what the rules say the event brings with it. -/

namespace Sys2Proof

/-- The seven registers of the window (R177). -/
inductive Register where
  | ident | control | status | houseTime | tableBaseLo | tableBaseHi | tableCount
  deriving DecidableEq, Repr

/-- How the host ends a read: with the bytes of host memory, or with an error completion (R143). -/
inductive Completion where
  | ok (data : List Byte)
  | error
  deriving DecidableEq, Repr

/-- The commands. A `tag` names one memory access in flight. `k` is the auditorium. -/
inductive Instr where
  /-- POWER_ON (R186). -/
  | powerOn
  /-- SOFT_RESET: a write of 1 to CONTROL.RESET (R185). -/
  | softReset
  /-- PART_START: a write of 1 to CONTROL.RUN (R182). -/
  | partStart
  /-- PART_STOP: a write of 0 to CONTROL.RUN (R183, R184). -/
  | partStop
  /-- NOTICE_EN: a write of `v` to CONTROL.NOTICE_EN (R180). -/
  | noticeEn (v : Bool)
  /-- STATUS_READ (R179). -/
  | statusRead
  /-- REGISTER_WRITE of `v` at byte `offset` of the register window (R177, R192). -/
  | registerWrite (offset : Byte) (v : Word)
  /-- TIMECODE_BYTE_ARRIVAL: byte `b` arrives on timecode line `k` (R1 to R3). -/
  | timecodeByteArrival (k : Aud) (b : Byte)
  /-- BYTE_GAP_EXPIRY on line `k` (R4). -/
  | byteGapExpiry (k : Aud)
  /-- FRAME_BOUNDARY of auditorium `k` (R14); the order R61 leaves open is in `snapshotFirst`. -/
  | frameBoundary (k : Aud) (snapshotFirst : Bool)
  /-- BUILD_POINT of auditorium `k` (R98). -/
  | buildPoint (k : Aud)
  /-- CALL: the exchange of link `k` that carries a CALL (R119). -/
  | call (k : Aud)
  /-- CALL_ANSWER: the POLL exchange after a CALL takes `b` (R120). -/
  | callAnswer (k : Aud) (b : Byte)
  /-- SEND_EXCHANGE: an exchange of SENDING takes `b` (R121). -/
  | sendExchange (k : Aud) (b : Byte)
  /-- VERDICT: a POLL exchange of AWAITING_VERDICT takes `b` (R123). -/
  | verdict (k : Aud) (b : Byte)
  /-- WAIT_POLL: a POLL exchange of WAITING takes `b` (R125). -/
  | waitPoll (k : Aud) (b : Byte)
  /-- ENTRY_READ_COMPLETE (R44). -/
  | entryReadComplete (tag : Nat) (c : Completion)
  /-- TEXT_READ_COMPLETE (R46). -/
  | textReadComplete (tag : Nat) (c : Completion)
  /-- SCAN_READ_COMPLETE (R65). -/
  | scanReadComplete (tag : Nat) (c : Completion)
  /-- LOOKBACK_READ_COMPLETE (R70). -/
  | lookbackReadComplete (tag : Nat) (c : Completion)
  /-- BLOCK_READ_COMPLETE (R79). -/
  | blockReadComplete (tag : Nat) (c : Completion)
  /-- DESCRIPTOR_READ_COMPLETE (R136). -/
  | descriptorReadComplete (tag : Nat) (c : Completion)
  /-- CUE_LIST_HEADER_READ_COMPLETE (R137). -/
  | cueListHeaderReadComplete (tag : Nat) (c : Completion)
  /-- HEAD_READ_COMPLETE (R150). -/
  | headReadComplete (tag : Nat) (c : Completion)
  /-- SLOT_READ_COMPLETE (R152). -/
  | slotReadComplete (tag : Nat) (c : Completion)
  /-- READ_GIVE_UP (R143). -/
  | readGiveUp (tag : Nat)
  /-- WRITE_COMPLETE, `ok` false where the host signals an error (R154, R143). -/
  | writeComplete (tag : Nat) (ok : Bool)
  /-- ACK_WRITE_COMPLETE (R154). -/
  | ackWriteComplete (tag : Nat) (ok : Bool)
  /-- REPORT_ENTRY_WRITE_COMPLETE (R188). -/
  | reportEntryWriteComplete (tag : Nat) (ok : Bool)
  /-- BIND role selector (R157). -/
  | bind (k : Aud) (role selector : Byte)
  /-- RELEASE role (R158). -/
  | release (k : Aud) (role : Byte)
  /-- RUN (R159). -/
  | run (k : Aud)
  /-- HALT (R160). -/
  | halt (k : Aud)
  /-- SET_CHANNELS (R161). -/
  | setChannels (k : Aud) (captions narration copies refresh check address : Byte)
  /-- SET_LOOP (R162). -/
  | setLoop (k : Aud) (c0 c1 c2 : Half) (pm : Byte) (epsMax : Half) (holdover : Byte) (trim : Half)
  /-- SET_MIX (R163). -/
  | setMix (k : Aud) (gn gb gd attack release : Half)
  /-- MARK (R164). -/
  | mark (k : Aud)
  /-- TAG_FIRST (R169). -/
  | tagFirst (k : Aud) (index : Half)
  /-- TAG_LAST (R170). -/
  | tagLast (k : Aud) (index : Half)
  /-- UNTAG (R171). -/
  | untag (k : Aud) (index : Half)
  /-- RETRACT (R172). -/
  | retract (k : Aud)
  /-- UNKNOWN_DIRECTIVE: a slot whose kind code names no directive (R155). -/
  | unknownDirective (k : Aud) (kind : Byte)
  deriving DecidableEq, Repr

end Sys2Proof
end

