-- ==== Sys2Proof/Config.lean ====
section
/-! DEFINITION. The numbers the manual fixes for every part, and the one choice it leaves open. -/

namespace Sys2Proof.Config

/-- Value the IDENT register always reads (R177). -/
def ident : Word := 0x47240101#32

/-- House ticks without a completion after which a read gives up (R143). -/
def giveUpTicks : Nat := 192

/-- House ticks after the latest byte at which a partial message is abandoned (R4). -/
def gapTicks : Nat := 97

/-- Payload bytes of an air frame at most (R99). -/
def payloadLimit : Nat := 1536

/-- Entries of an air queue at most (R100). -/
def queueLimit : Nat := 32

/-- Greatest show time (R12). -/
def showTimeMax : Nat := 4294967295

/-- Text bytes of a caption at most (R45). -/
def textLimit : Nat := 192

/-- FREE VALUE (log entry 4). Whether, at the frame boundary an auditorium takes at a house time, the
status snapshot is composed before the Sequencer's work of that boundary. R61: "The snapshot and the
walk of the same boundary may come in either order." Nothing is known of it. -/
opaque snapshotFirst : Word → Aud → Bool

end Sys2Proof.Config
end

