-- ==== Sys2Proof/Machine/State.lean ====
section
/-! DEFINITION. The state of the part as plain data: every register, latch, buffer, counter, mark and mode
the manual gives the House Port, the Region Unit and the blocks of the 24 auditoriums, the memory accesses
in flight, and the queue of waiting commands. Beside it the reasons a step can stop, and the state after
power-on. -/

namespace Sys2Proof.Machine

/-! ## Reasons to stop -/

/-- Faults: none. No event of the manual stops the part (log entry 31). -/
inductive Fault where
  deriving DecidableEq, Repr

/-- Refusals. -/
inductive Refusal where
  /-- Raised by `exec` for a command that has no meaning in the model yet. Safe: the run stops. No arm of
  this model raises it. -/
  | notModelled (mnemonic : String)
  deriving DecidableEq, Repr

/-! ## Roles, causes, cue ids -/

/-- The four part states (R181). -/
inductive PartState where
  | stopped | scanning | running | stopping
  deriving DecidableEq, Repr

/-- The seven roles (R133, R192). -/
inductive Role where
  | showRecord | cues | payload | narrationA | narrationB | bed | reports
  deriving DecidableEq, Repr

/-- The three rings of a mixer (R75). -/
inductive RingName where
  | a | b | bed
  deriving DecidableEq, Repr

/-- Causes of a REGION_FAULT (R134, R144, R192). -/
inductive Cause where
  | notPresent | wrongKind | tooSmall | misaligned | limit | memory
  deriving DecidableEq, Repr

/-- A cue id: the CUES bind epoch and the cue index (R51). -/
structure CueId where
  epoch : Byte
  index : Nat
  deriving DecidableEq, Repr

/-- What a report says: the sixteen kinds with their details (R189). -/
inductive Report where
  | clockSeated (old new : Word)
  | clockLocked (showTime : Word) (eps : Int)
  | clockFlywheel
  | clockLost
  | clockPaused
  | clockResumed
  | clockStopped
  | offSpeed (minus : Bool) (eps : Int)
  | seekDone (cursor count : Nat)
  | listEnd (cursor : Nat)
  | sequencerFault (offset : Nat)
  | regionFault (role : Role) (selector : Byte) (cause : Cause) (offset : Nat)
  | narrationUnderrun (ring : RingName) (take : Word)
  | narrationResumed (ring : RingName)
  | linkDown
  | linkUp
  deriving DecidableEq, Repr

/-! ## Timecode Receiver (R1) -/

inductive ReceiverState where
  | hunting | assembling
  deriving DecidableEq, Repr

structure Receiver where
  state : ReceiverState
  /-- The assembly buffer, first byte first. -/
  buffer : List Byte
  /-- Arrival tick of the buffer's first byte (h_a). -/
  firstTick : Option Word
  /-- Arrival tick of the buffer's latest byte. -/
  latestTick : Option Word
  /-- Sequence number of the last message accepted. -/
  lastSequence : Option Byte
  /-- The bad-report count's internal copy (R10). -/
  badReports : Word
  deriving DecidableEq, Repr

/-! ## Show Clock (R12) -/

/-- What a playback server says it does (R192, position message). -/
inductive ServerState where
  | play | pause | stop
  deriving DecidableEq, Repr

inductive ClockState where
  | idle | searching | acquiring | locked | flywheel | paused | lost
  deriving DecidableEq, Repr

/-- The loop settings (R12, R34). -/
structure LoopSettings where
  c0 : Int
  c1 : Int
  c2 : Int
  pm : Nat
  epsMax : Nat
  holdover : Nat
  trim : Int
  deriving DecidableEq, Repr

/-- The boundary record (R16). -/
structure BoundaryRecord where
  showTime : Word
  state : ClockState
  eps : Int
  tally : Int
  seats : Word
  houseTime : Word
  deriving DecidableEq, Repr

structure Clock where
  state : ClockState
  /-- S. -/
  showTime : Word
  /-- h_anc. -/
  anchor : Word
  /-- F, in units of 2^-24 show tick. -/
  fraction : Nat
  /-- The rate offset, in units of 2^-24. -/
  eps : Int
  /-- The pending slew c. -/
  slew : Int
  e1 : Int
  e2 : Int
  acquire : Nat
  silence : Nat
  tally : Int
  seats : Word
  record : BoundaryRecord
  loop : LoopSettings
  deriving DecidableEq, Repr

/-! ## Cue Sequencer (R39, R63) -/

inductive SeqState where
  | idle | seeking | walking | faulted
  deriving DecidableEq, Repr

/-- The fields of a cue list entry as read (R37). -/
structure CueEntry where
  start : Word
  finish : Word
  payloadOffset : Word
  payloadLength : Half
  channel : Byte
  kind : Byte
  row : BitVec 4
  style : Byte
  retracted : Bool
  deriving DecidableEq, Repr

inductive SlotState where
  | reading | ready | fetching | loaded
  deriving DecidableEq, Repr

/-- A slot of the staging window (R41); `text` is its place of the text store (R50). -/
structure Slot where
  index : Nat
  state : SlotState
  retracted : Bool
  bad : Bool
  entry : Option CueEntry
  text : Option (List Byte)
  deriving DecidableEq, Repr

/-- An active cue record (R51); `text` is its place of the text store, none while its read is awaited. -/
structure ActiveCue where
  cue : CueId
  start : Word
  finish : Word
  row : BitVec 4
  style : Byte
  text : Option (List Byte)
  reentered : Bool
  deriving DecidableEq, Repr

inductive SeekPhase where
  | scan | reentry
  deriving DecidableEq, Repr

inductive Direction where
  | undecided | forward | backward
  deriving DecidableEq, Repr

/-- An entry a scan or lookback has asked for: no entry while its read is in flight, else held (R63). -/
structure SeekItem where
  index : Nat
  entry : Option CueEntry
  deriving DecidableEq, Repr

/-- A caption chosen for re-entry (R63). -/
structure Candidate where
  index : Nat
  channel : Channel
  start : Word
  finish : Word
  row : BitVec 4
  style : Byte
  payloadOffset : Word
  textLength : Nat
  truncated : Bool
  deriving DecidableEq, Repr

/-- The seek context (R63). `batch` is empty where there is none. -/
structure Seek where
  phase : SeekPhase
  target : Word
  direction : Direction
  batch : List SeekItem
  lookback : Option (List SeekItem)
  stopped : List Channel
  candidates : List Candidate
  deriving DecidableEq, Repr

structure Sequencer where
  state : SeqState
  cursor : Nat
  listCount : Nat
  window : List Slot
  active : Vector (List ActiveCue) 4
  seekGen : Nat
  seek : Option Seek
  listEnd : Bool
  staleCues : Word
  crowded : Word
  truncated : Word
  badCues : Word
  deriving DecidableEq, Repr

/-! ## Narration Mixer (R78) -/

/-- An audio block as the mixer uses it (R76): an even start tick and 1 to 240 samples. -/
structure Block where
  start : Word
  silent : Bool
  last : Bool
  samples : List Half
  deriving DecidableEq, Repr

/-- A place of a ring's read-ahead: its read in flight, its read failed, or its block on chip (R79). -/
inductive BlockState where
  | reading
  | failed
  | held (b : Block)
  deriving DecidableEq, Repr

structure RingBlock where
  number : Word
  state : BlockState
  deriving DecidableEq, Repr

inductive RingCondition where
  | resting | playing | starved
  deriving DecidableEq, Repr

structure Ring where
  bound : Bool
  capacity : Nat
  /-- N. -/
  position : Word
  resync : Bool
  /-- On-chip blocks and reads in flight, in block order, at most 3 together. -/
  blocks : List RingBlock
  fetchGen : Nat
  take : Word
  fill : Word
  condition : RingCondition
  underruns : Word
  deriving DecidableEq, Repr

/-- The mix settings (R78, R91). -/
structure MixSettings where
  gn : Half
  gb : Half
  gd : Half
  attack : Half
  release : Half
  deriving DecidableEq, Repr

structure Mixer where
  ringA : Ring
  ringB : Ring
  bed : Ring
  gainA : Nat
  gainB : Nat
  clippedA : Word
  clippedB : Word
  settings : MixSettings
  deriving DecidableEq, Repr

/-! ## Air Builder (R97) -/

inductive QueueKind where
  | start | finish | clear
  deriving DecidableEq, Repr

/-- An air queue entry (R100). -/
structure QueueEntry where
  kind : QueueKind
  channel : Channel
  cue : Option CueId
  copies : Nat
  waiting : Bool
  deriving DecidableEq, Repr

/-- An air record (R101). -/
structure AirRecord where
  cue : CueId
  channel : Channel
  reentered : Bool
  textHeld : Bool
  aired : Bool
  countdown : Nat
  deriving DecidableEq, Repr

structure Builder where
  queue : List QueueEntry
  records : List AirRecord
  sequence : Half
  closing : Nat
  lateCues : Word
  overflow : Word
  framesBuilt : Word
  deriving DecidableEq, Repr

/-- A section of an air frame (R99, R108, R109). -/
inductive AirSection where
  | narration (channelB silent : Bool) (samples : List Half)
  | start (channel : Channel) (cue : CueId) (refresh reentered : Bool) (hold : Nat)
      (row : BitVec 4) (style : Byte) (text : List Byte)
  | finish (channel : Channel) (cue : CueId)
  | clear (channel : Channel)
  deriving DecidableEq, Repr

/-- An air frame: its header fields (R111) and its sections in the order placed. -/
structure AirFrame where
  auditorium : Aud
  clockState : ClockState
  sequence : Half
  showTime : Word
  closing : Bool
  sections : List AirSection
  deriving DecidableEq, Repr

/-! ## Emitter Link (R116) -/

inductive LinkState where
  | idle | calling | sending | awaitingVerdict | waiting
  deriving DecidableEq, Repr

structure Link where
  state : LinkState
  down : Bool
  /-- The in-flight slot. -/
  frame : Option AirFrame
  /-- The attempt: set for RETRY, clear for FIRST. -/
  retry : Bool
  retryDue : Bool
  /-- The pending slot. -/
  next : Option AirFrame
  unanswered : Nat
  /-- Call settings latched at the latest CALL. -/
  address : BitVec 6
  checkOn : Bool
  dropped : Word
  retries : Word
  /-- In CALLING: the CALL is sent and its answer not yet read. -/
  called : Bool
  /-- In SENDING: how many bytes, the OPEN included, have been sent. -/
  sent : Nat
  /-- In SENDING: a REFUSED was taken and the next exchange carries SHUT. -/
  shutDue : Bool
  /-- The frame in flight is being finished under R130. -/
  finishing : Bool
  /-- The byte the latest exchange drove on the outbound line. -/
  out : Option Byte
  deriving DecidableEq, Repr

/-! ## Directive Unit (R165) -/

inductive ShowState where
  | dark | halted | running | closing
  deriving DecidableEq, Repr

/-- The tag state (R167). -/
inductive TagState where
  | empty
  | firstSet (first : Nat)
  | rangeSet (first last : Nat) (untags : List Nat)
  deriving DecidableEq, Repr

/-- The channel settings (R161). -/
structure ChannelSettings where
  captions : BitVec 4
  narration : BitVec 2
  copies : Nat
  refresh : Nat
  checkOn : Bool
  address : BitVec 6
  deriving DecidableEq, Repr

/-- Where a batch stands (R152 to R154). `claiming` waits for the descriptor read `tag` of a BIND with the
two facts of R157; `counting` waits for the header read `tag` of a CUES bind. -/
inductive BatchPhase where
  | reading
  | taking
  | claiming (tag : Nat) (role : Role) (selector : Byte) (held allowed tagReset : Bool)
  | counting (tag : Nat) (tagReset : Bool)
  | ending
  | acking
  deriving DecidableEq, Repr

/-- A batch in flight (R165): `slots` are the host's bytes of the slots as read, `next` the slot being taken,
`outstanding` the writes and memory work the acknowledgement waits for. -/
structure Batch where
  generation : Word
  slots : List (List Byte)
  next : Nat
  phase : BatchPhase
  outstanding : List Nat
  deriving DecidableEq, Repr

structure DirectiveUnit where
  showState : ShowState
  ackGeneration : Word
  /-- The first head read since becoming HALTED is done. -/
  firstHead : Bool
  batch : Option Batch
  /-- The tag that the next access had when the latest acknowledgement completed. A head read with a smaller tag was
  issued before that and begins no batch (R154; tags: log entry 8). -/
  headFrom : Nat
  tag : TagState
  channels : ChannelSettings
  deriving DecidableEq, Repr

/-! ## Report Writer (R187) and epoch counters (R135) -/

structure Writer where
  bound : Bool
  capacity : Nat
  writeCount : Word
  readCount : Word
  missed : Word
  deriving DecidableEq, Repr

structure Epochs where
  showRecord : Byte
  cues : Byte
  payload : Byte
  narrationA : Byte
  narrationB : Byte
  bed : Byte
  reports : Byte
  deriving DecidableEq, Repr

/-! ## Auditorium -/

structure Auditorium where
  receiver : Receiver
  clock : Clock
  seq : Sequencer
  mixer : Mixer
  builder : Builder
  link : Link
  unit : DirectiveUnit
  writer : Writer
  epochs : Epochs
  /-- The tick of the frame boundary has come and the boundary is not yet taken. -/
  boundaryDue : Bool
  /-- The tick of the build point has come and the build point is not yet taken. -/
  buildDue : Bool
  deriving DecidableEq, Repr

/-! ## Region Unit and House Port -/

/-- An entry of the binding map (R135). -/
structure Binding where
  selector : Byte
  aud : Aud
  role : Role
  epoch : Byte
  base : Quad
  limit : Word
  deriving DecidableEq, Repr

/-- What an access is for. The first group are reads through a binding, the second reads of the region
table, the third writes through a binding, the fourth writes to the region table. -/
inductive Purpose where
  | entryRead (gen index : Nat)
  | textRead (gen : Nat) (cue : CueId)
  | scanRead (gen index : Nat)
  | lookbackRead (gen index : Nat)
  | blockRead (ring : RingName) (gen : Nat) (number : Word)
  | headerRead
  | headRead
  | slotRead
  | claimRead
  | startScanRead
  | darkCheckRead
  | resultWrite
  | snapshotWrite
  | ackWrite
  | flagWrite
  | reportWrite
  | bindingWrite
  | startScanWrite
  deriving DecidableEq, Repr

/-- A byte a read must see because a write of it was in flight when the read was issued (R142). -/
structure Forward where
  writer : Nat
  offset : Nat
  value : Byte
  deriving DecidableEq, Repr

/-- A memory access in flight (R140). `aud` is none for an access of the start-up scan. `offset` is the
offset a REGION_FAULT would carry (R144). `live` is cleared when the batch it serves is abandoned (R148). `answer`
is what the host has signalled for a write whose turn has not come (R142; log entry 36). -/
structure Access where
  tag : Nat
  issued : Word
  aud : Option Aud
  role : Role
  selector : Byte
  epoch : Byte
  offset : Nat
  address : Quad
  length : Nat
  data : List Byte
  forwards : List Forward
  live : Bool
  answer : Option Bool
  purpose : Purpose
  deriving DecidableEq, Repr

/-- The state of the part. -/
structure State where
  /-- Commands waiting, the first to be taken first. -/
  pending : List Instr
  partState : PartState
  noticeEn : Bool
  notice : Bool
  houseFault : Bool
  tableBaseLo : Word
  tableBaseHi : Word
  tableCount : Word
  houseTime : Word
  framePhase : Fin 480
  latchedBase : Quad
  latchedCount : Word
  bindings : List Binding
  inFlight : List Access
  nextTag : Nat
  messages : Nat
  readValue : Word
  auds : Vector Auditorium 24
  deriving DecidableEq, Repr

/-! ## Values after power-on -/

/-- R11. -/
def Receiver.initial : Receiver :=
  { state := .hunting, buffer := [], firstTick := none, latestTick := none, lastSequence := none
    badReports := 0 }

/-- R12, defaults. -/
def LoopSettings.initial : LoopSettings :=
  { c0 := 320, c1 := -256, c2 := 0, pm := 4, epsMax := 8388, holdover := 50, trim := 0 }

/-- R35; the record's house time is log entry 18. -/
def BoundaryRecord.initial : BoundaryRecord :=
  { showTime := 0, state := .idle, eps := 0, tally := 0, seats := 0, houseTime := 0 }

/-- R35. -/
def Clock.initial : Clock :=
  { state := .idle, showTime := 0, anchor := 0, fraction := 0, eps := 0, slew := 0, e1 := 0, e2 := 0
    acquire := 0, silence := 0, tally := 0, seats := 0, record := .initial, loop := .initial }

/-- R62; the generation is log entry 9. -/
def Sequencer.initial : Sequencer :=
  { state := .idle, cursor := 0, listCount := 0, window := [], active := Vector.replicate 4 []
    seekGen := 0, seek := none, listEnd := false, staleCues := 0, crowded := 0, truncated := 0
    badCues := 0 }

/-- R96; capacity and fill count are log entry 18, the generation log entry 9. -/
def Ring.initial : Ring :=
  { bound := false, capacity := 0, position := 0, resync := true, blocks := [], fetchGen := 0, take := 0
    fill := 0, condition := .resting, underruns := 0 }

/-- R78, defaults. -/
def MixSettings.initial : MixSettings :=
  { gn := 32768, gb := 0, gd := 0, attack := 64, release := 16 }

/-- R96. -/
def Mixer.initial : Mixer :=
  { ringA := .initial, ringB := .initial, bed := .initial, gainA := 0, gainB := 0, clippedA := 0
    clippedB := 0, settings := .initial }

/-- R115. -/
def Builder.initial : Builder :=
  { queue := [], records := [], sequence := 0, closing := 0, lateCues := 0, overflow := 0, framesBuilt := 0 }

/-- R131. -/
def Link.initial (k : Aud) : Link :=
  { state := .idle, down := false, frame := none, retry := false, retryDue := false, next := none
    unanswered := 0, address := BitVec.ofNat 6 k.val, checkOn := true, dropped := 0, retries := 0
    called := false, sent := 0, shutDue := false, finishing := false, out := none }

/-- R166, R161, R97, R116. -/
def ChannelSettings.initial (k : Aud) : ChannelSettings :=
  { captions := 15, narration := 3, copies := 1, refresh := 100, checkOn := true
    address := BitVec.ofNat 6 k.val }

/-- R166. -/
def DirectiveUnit.initial (k : Aud) : DirectiveUnit :=
  { showState := .dark, ackGeneration := 0, firstHead := false, batch := none, headFrom := 0, tag := .empty
    channels := .initial k }

/-- R191. -/
def Writer.initial : Writer :=
  { bound := false, capacity := 0, writeCount := 0, readCount := 0, missed := 0 }

/-- R135. -/
def Epochs.initial : Epochs :=
  { showRecord := 0, cues := 0, payload := 0, narrationA := 0, narrationB := 0, bed := 0, reports := 0 }

/-- Every block of auditorium `k` in its power-on state (R186). The frame phase is 0, at which auditorium 0 has its
boundary and auditorium 12 its build point (R13). -/
def Auditorium.initial (k : Aud) : Auditorium :=
  { receiver := .initial, clock := .initial, seq := .initial, mixer := .initial, builder := .initial
    link := .initial k, unit := .initial k, writer := .initial, epochs := .initial
    boundaryDue := 20 * k.val == 0, buildDue := (20 * k.val + 240) % 480 == 0 }

/-- The part at power-on (R186), with no command waiting. -/
def State.reset : State :=
  { pending := [], partState := .stopped, noticeEn := false, notice := false, houseFault := false
    tableBaseLo := 0, tableBaseHi := 0, tableCount := 0, houseTime := 0, framePhase := 0
    latchedBase := 0, latchedCount := 0, bindings := [], inFlight := [], nextTag := 0, messages := 0
    readValue := 0, auds := Vector.ofFn Auditorium.initial }

/-! ## One auditorium of the state -/

/-- The blocks of auditorium `k`. -/
def State.aud (s : State) (k : Aud) : Auditorium := s.auds[k]

/-- Put `a` in the place of auditorium `k`'s blocks. -/
def State.setAud (s : State) (k : Aud) (a : Auditorium) : State := { s with auds := s.auds.set k a }

/-- Change auditorium `k`'s blocks by `f`. -/
def State.modAud (s : State) (k : Aud) (f : Auditorium → Auditorium) : State := s.setAud k (f (s.aud k))

/-- Change every auditorium's blocks. -/
def State.mapAuds (s : State) (f : Aud → Auditorium → Auditorium) : State :=
  { s with auds := Vector.ofFn fun k => f k (s.aud k) }

end Sys2Proof.Machine
end

