-- ==== Sys2Proof/Machine/Operands.lean ====
section
/-! DEFINITION. The layouts of 12_formats.md (R192): what the part reads out of host memory and the lines,
and the bytes of every record it writes. -/

namespace Sys2Proof.Machine

/-! ## Little-endian fields -/

/-- The byte at offset `i` of a record. -/
def byteAt (d : List Byte) (i : Nat) : Byte := d.getD i 0

/-- The two-byte field at offset `i`, least significant byte first (R192). -/
def halfAt (d : List Byte) (i : Nat) : Half := byteAt d (i + 1) ++ byteAt d i

/-- The four-byte field at offset `i` (R192). -/
def wordAt (d : List Byte) (i : Nat) : Word := halfAt d (i + 2) ++ halfAt d i

/-- The eight-byte field at offset `i` (R192). -/
def quadAt (d : List Byte) (i : Nat) : Quad := wordAt d (i + 4) ++ wordAt d i

/-- The bytes of a two-byte field (R192). -/
def leHalf (v : Half) : List Byte := [v.extractLsb' 0 8, v.extractLsb' 8 8]

/-- The bytes of a four-byte field (R192). -/
def leWord (v : Word) : List Byte :=
  [v.extractLsb' 0 8, v.extractLsb' 8 8, v.extractLsb' 16 8, v.extractLsb' 24 8]

/-- A signed four-byte field, two's complement (R192). -/
def leInt (v : Int) : List Byte := leWord (BitVec.ofInt 32 v)

/-- A two-byte field that holds a count. -/
def leNat16 (n : Nat) : List Byte := leHalf (BitVec.ofNat 16 n)

/-- A record brought to `n` bytes: what is missing is 0, what is beyond is left out. -/
def padTo (n : Nat) (d : List Byte) : List Byte := (d ++ List.replicate n 0).take n

/-! ## Codes -/

/-- Role codes (R192). -/
def Role.code : Role → Byte
  | .showRecord => 1
  | .cues => 2
  | .payload => 3
  | .narrationA => 4
  | .narrationB => 5
  | .bed => 6
  | .reports => 7

/-- The role a code byte names; the code 0 and the codes above 7 name none (R192). -/
def roleOfCode (b : Byte) : Option Role :=
  match b.toNat with
  | 1 => some .showRecord
  | 2 => some .cues
  | 3 => some .payload
  | 4 => some .narrationA
  | 5 => some .narrationB
  | 6 => some .bed
  | 7 => some .reports
  | _ => none

/-- Cause codes of a REGION_FAULT (R192). -/
def Cause.code : Cause → Byte
  | .notPresent => 1
  | .wrongKind => 2
  | .tooSmall => 3
  | .misaligned => 4
  | .limit => 5
  | .memory => 6

/-- Ring codes of a narration report (R192). -/
def RingName.code : RingName → Byte
  | .a => 0
  | .b => 1
  | .bed => 2

/-- The role a ring is bound to (R75). -/
def RingName.role : RingName → Role
  | .a => .narrationA
  | .b => .narrationB
  | .bed => .bed

/-- Part state field of STATUS (R192). -/
def PartState.code : PartState → Word
  | .stopped => 0
  | .scanning => 1
  | .running => 2
  | .stopping => 3

/-- Status offset 324 (R192). -/
def ShowState.code : ShowState → Byte
  | .dark => 0
  | .halted => 1
  | .running => 2
  | .closing => 3

/-- Status offset 325 (R192). -/
def ClockState.code : ClockState → Byte
  | .idle => 0
  | .searching => 1
  | .acquiring => 2
  | .locked => 3
  | .flywheel => 4
  | .paused => 5
  | .lost => 6

/-- Status offset 326 (R192). -/
def SeqState.code : SeqState → Byte
  | .idle => 0
  | .seeking => 1
  | .walking => 2
  | .faulted => 3

/-- Status offset 327, bits 2 to 0 (R192). -/
def LinkState.code : LinkState → Byte
  | .idle => 0
  | .calling => 1
  | .sending => 2
  | .awaitingVerdict => 3
  | .waiting => 4

/-- The register at a byte offset of the register window (R192, register window); none at any other offset. -/
def registerAt (offset : Byte) : Option Register :=
  match offset.toNat with
  | 0x00 => some .ident
  | 0x04 => some .control
  | 0x08 => some .status
  | 0x0C => some .houseTime
  | 0x10 => some .tableBaseLo
  | 0x14 => some .tableBaseHi
  | 0x18 => some .tableCount
  | _ => none

/-! ## Records the part reads -/

/-- A cue list entry (R37, R192). The row is the low four bits of its byte. -/
def parseEntry (d : List Byte) : CueEntry :=
  { start := wordAt d 0
    finish := wordAt d 4
    payloadOffset := wordAt d 8
    payloadLength := halfAt d 12
    channel := byteAt d 14
    kind := byteAt d 15
    row := (byteAt d 16).setWidth 4
    style := byteAt d 17
    retracted := (byteAt d 18).getLsbD 0 }

/-- The even tick at or below `v` (R76). -/
def evenBelow (v : Word) : Word := v &&& 0xFFFFFFFE#32

/-- An audio block as the mixer uses it (R76): the start tick made even; a count of 0 is 240 silent samples
of value 0; a count above 240 is 240. -/
def parseBlock (d : List Byte) : Block :=
  let count := (halfAt d 4).toNat
  let flags := byteAt d 6
  { start := evenBelow (wordAt d 0)
    silent := count == 0 || flags.getLsbD 0
    last := flags.getLsbD 1
    samples :=
      if count = 0 then List.replicate 240 0
      else (List.range (min count 240)).map fun i => halfAt d (16 + 2 * i) }

/-- A region descriptor's host fields (R133). -/
structure Descriptor where
  base : Quad
  /-- The byte limit (R133). -/
  limit : Word
  kind : Byte
  present : Bool
  deriving DecidableEq, Repr

/-- R133: the byte limit is the 20-bit limit, or limit·4096 + 4095 with PAGE granularity. -/
def descriptorLimit (field : Word) : Word :=
  let limit := field &&& 0xFFFFF#32
  if field.getLsbD 31 then limit * 4096 + 4095 else limit

/-- A region descriptor (R133, R192). -/
def parseDescriptor (d : List Byte) : Descriptor :=
  { base := quadAt d 0
    limit := descriptorLimit (wordAt d 8)
    kind := byteAt d 12
    present := (byteAt d 13).getLsbD 0 }

/-- The host's bytes of the eight slots: kind and arguments, 15 bytes of each 32 (R149, R192). -/
def parseSlots (d : List Byte) : List (List Byte) :=
  (List.range 8).map fun n => padTo 15 (d.drop (32 * n))

/-- The command of the directive in a slot, with its arguments (R192, kind codes and arguments). A slot of
kind NONE holds none. -/
def slotCommand (k : Aud) (d : List Byte) : Option Instr :=
  match (byteAt d 0).toNat with
  | 0 => none
  | 1 => some (.bind k (byteAt d 1) (byteAt d 2))
  | 2 => some (.release k (byteAt d 1))
  | 3 => some (.run k)
  | 4 => some (.halt k)
  | 5 => some (.setChannels k (byteAt d 1) (byteAt d 2) (byteAt d 3) (byteAt d 4) (byteAt d 5) (byteAt d 6))
  | 6 => some (.setLoop k (halfAt d 1) (halfAt d 3) (halfAt d 5) (byteAt d 7) (halfAt d 8) (byteAt d 10) (halfAt d 11))
  | 7 => some (.setMix k (halfAt d 1) (halfAt d 3) (halfAt d 5) (halfAt d 7) (halfAt d 9))
  | 8 => some (.tagFirst k (halfAt d 1))
  | 9 => some (.tagLast k (halfAt d 1))
  | 10 => some (.untag k (halfAt d 1))
  | 11 => some (.retract k)
  | 12 => some (.mark k)
  | _ => some (.unknownDirective k (byteAt d 0))

/-! ## Records the part writes -/

/-- Kind code of a report (R192). -/
def Report.code : Report → Byte
  | .clockSeated _ _ => 1
  | .clockLocked _ _ => 2
  | .clockFlywheel => 3
  | .clockLost => 4
  | .clockPaused => 5
  | .clockResumed => 6
  | .clockStopped => 7
  | .offSpeed _ _ => 8
  | .seekDone _ _ => 9
  | .listEnd _ => 10
  | .sequencerFault _ => 11
  | .regionFault _ _ _ _ => 12
  | .narrationUnderrun _ _ => 13
  | .narrationResumed _ => 14
  | .linkDown => 15
  | .linkUp => 16

/-- The detail field of a report, from offset 12 of its entry (R192). -/
def Report.detail : Report → List Byte
  | .clockSeated old new => leWord old ++ leWord new
  | .clockLocked showTime eps => leWord showTime ++ leInt eps
  | .offSpeed minus eps => [if minus then 1 else 0, 0, 0, 0] ++ leInt eps
  | .seekDone cursor count => leNat16 cursor ++ [BitVec.ofNat 8 count]
  | .listEnd cursor => leNat16 cursor
  | .sequencerFault offset => leWord (BitVec.ofNat 32 offset)
  | .regionFault role selector cause offset =>
    [role.code, selector, cause.code, 0] ++ leWord (BitVec.ofNat 32 offset)
  | .narrationUnderrun ring take => [ring.code, 0, 0, 0] ++ leWord take
  | .narrationResumed ring => [ring.code]
  | .clockFlywheel => []
  | .clockLost => []
  | .clockPaused => []
  | .clockResumed => []
  | .clockStopped => []
  | .linkDown => []
  | .linkUp => []

/-- The 32 bytes of a report entry (R189, R192). -/
def reportBytes (number houseTime : Word) (k : Aud) (r : Report) : List Byte :=
  leWord number ++ leWord houseTime ++ [r.code, BitVec.ofNat 8 k.val, 0, 0] ++ padTo 20 r.detail

/-- The binding bytes of a bound descriptor: bound mark and role, then the auditorium (R137, R192). -/
def boundBytes (role : Role) (k : Aud) : List Byte := [0x80#8 ||| role.code, BitVec.ofNat 8 k.val]

/-- The binding bytes of a cleared descriptor (R138, R145). -/
def clearedBytes : List Byte := [0, 0]

/-- The reply of a BIND (R192): capacity and bind epoch. -/
def bindReply (capacity : Word) (epoch : Byte) : List Byte := padTo 16 (leWord capacity ++ [epoch])

/-- The reply of a RETRACT (R175, R192). -/
def retractReply (retracted past : Nat) : List Byte := padTo 16 (leNat16 retracted ++ leNat16 past)

/-- The reply of a MARK (R164, R192). -/
def markReply (a : Auditorium) (houseTime : Word) : List Byte :=
  leWord a.clock.showTime ++ [a.clock.state.code, a.seq.state.code] ++ leNat16 a.seq.cursor
    ++ leInt a.clock.eps ++ leWord houseTime

/-- A reply of all 0. -/
def zeroReply : List Byte := List.replicate 16 0

/-- Tag state code, untags held, tag first, tag last (R167, R192 status offsets 337 to 343). -/
def TagState.code : TagState → Byte
  | .empty => 0
  | .firstSet _ => 1
  | .rangeSet _ _ _ => 2

def TagState.untagCount : TagState → Nat
  | .empty => 0
  | .firstSet _ => 0
  | .rangeSet _ _ untags => untags.length

def TagState.firstField : TagState → Nat
  | .empty => 0
  | .firstSet first => first
  | .rangeSet first _ _ => first

def TagState.lastField : TagState → Nat
  | .empty => 0
  | .firstSet _ => 0
  | .rangeSet _ last _ => last

/-- The link byte of the status area: link state and DOWN mark (R192 status offset 327). -/
def linkByte (l : Link) : Byte := l.state.code ||| (if l.down then 0x80#8 else 0)

/-- The 192 bytes of a status snapshot (R151, R192). -/
def snapshotBytes (a : Auditorium) : List Byte :=
  leWord a.unit.ackGeneration
    ++ [a.unit.showState.code, a.clock.record.state.code, a.seq.state.code, linkByte a.link]
    ++ leWord a.clock.record.showTime
    ++ leInt a.clock.record.eps
    ++ [BitVec.ofInt 8 a.clock.record.tally, a.unit.tag.code, BitVec.ofNat 8 a.unit.tag.untagCount, 0]
    ++ leNat16 a.unit.tag.firstField ++ leNat16 a.unit.tag.lastField
    ++ leNat16 a.seq.cursor ++ leNat16 a.seq.listCount
    ++ leWord a.mixer.ringA.take ++ leWord a.mixer.ringB.take ++ leWord a.mixer.bed.take
    ++ leWord a.writer.writeCount ++ leWord a.writer.missed
    ++ leWord a.receiver.badReports ++ leWord a.clock.record.seats
    ++ leWord a.seq.staleCues ++ leWord a.builder.lateCues ++ leWord a.seq.crowded
    ++ leWord a.builder.overflow ++ leWord a.seq.truncated ++ leWord a.seq.badCues
    ++ leWord a.mixer.ringA.underruns ++ leWord a.mixer.ringB.underruns ++ leWord a.mixer.bed.underruns
    ++ leWord a.mixer.clippedA ++ leWord a.mixer.clippedB
    ++ leWord a.builder.framesBuilt ++ leWord a.link.dropped ++ leWord a.link.retries
    ++ List.replicate 80 0

/-! ## Air frames -/

/-- Size of a section in bytes (R99). -/
def AirSection.size : AirSection → Nat
  | .narration _ _ _ => 484
  | .start _ _ _ _ _ _ _ text => 16 + text.length
  | .finish _ _ => 8
  | .clear _ => 4

/-- The bytes of a section (R192, air frame). -/
def AirSection.bytes : AirSection → List Byte
  | .narration channelB silent samples =>
    [1, if channelB then 1 else 0, if silent then 1 else 0, 0] ++ samples.flatMap leHalf
  | .start channel cue refresh reentered hold row style text =>
    [2, BitVec.ofNat 8 channel.val, cue.epoch,
      (if refresh then 1#8 else 0) ||| (if reentered then 2#8 else 0)]
      ++ leNat16 cue.index ++ leNat16 hold
      ++ [row.setWidth 8, style, BitVec.ofNat 8 text.length, 0, 0, 0, 0, 0] ++ text
  | .finish channel cue =>
    [3, BitVec.ofNat 8 channel.val, cue.epoch, 0] ++ leNat16 cue.index ++ [0, 0]
  | .clear channel => [4, BitVec.ofNat 8 channel.val, 0, 0]

/-- Payload bytes of a run of sections (R99). -/
def payloadSize (sections : List AirSection) : Nat := (sections.map AirSection.size).sum

/-- Payload length of a frame (R111). -/
def AirFrame.payload (f : AirFrame) : Nat := payloadSize f.sections

/-- The 16 header bytes (R111, R192). -/
def AirFrame.header (f : AirFrame) : List Byte :=
  [0x6E, 1, BitVec.ofNat 8 f.auditorium.val, f.clockState.code] ++ leHalf f.sequence ++ leWord f.showTime
    ++ [BitVec.ofNat 8 f.sections.length, if f.closing then 1 else 0] ++ leNat16 f.payload ++ [0, 0]

/-- Header and sections as they go on the line (R121). -/
def AirFrame.bytes (f : AirFrame) : List Byte := f.header ++ f.sections.flatMap AirSection.bytes

/-- One bit into the check register (R122). -/
def crcBit (reg : Half) (bit : Bool) : Half :=
  if reg.getLsbD 15 != bit then (reg <<< 1) ^^^ 0x1021#16 else reg <<< 1

/-- One byte into the check register, most significant bit first (R122). -/
def crcByte (reg : Half) (b : Byte) : Half :=
  [7, 6, 5, 4, 3, 2, 1, 0].foldl (fun r i => crcBit r (b.getLsbD i)) reg

/-- The check over a run of bytes, the register starting at 0xFFFF (R122). -/
def crc (d : List Byte) : Half := d.foldl crcByte 0xFFFF#16

end Sys2Proof.Machine
end

