-- ==== Sys2Proof/Machine/Flags.lean ====
section
/-! DEFINITION. The latches of STATUS and the interrupt message they send (R179, R180), the values of the
registers (R177), and the conditions of a directive's result (R155). -/

namespace Sys2Proof.Machine

/-- Set NOTICE. An interrupt message goes out when it was clear and NOTICE_EN is 1 (R180). -/
def State.setNotice (s : State) : State :=
  { s with notice := true, messages := if !s.notice && s.noticeEn then s.messages + 1 else s.messages }

/-- Set HOUSE_FAULT, and with it NOTICE (R179, R180). -/
def State.setHouseFault (s : State) : State := { s with houseFault := true }.setNotice

/-- Write NOTICE_EN. A change from 0 to 1 while NOTICE is set sends one message (R180). -/
def State.setNoticeEn (s : State) (v : Bool) : State :=
  { s with noticeEn := v, messages := if v && !s.noticeEn && s.notice then s.messages + 1 else s.messages }

/-- CONTROL.RUN reads 1 from a successful start until the part enters STOPPING (R178). -/
def State.runBit (s : State) : Bool :=
  match s.partState with
  | .scanning => true
  | .running => true
  | .stopped => false
  | .stopping => false

def bit (n : Nat) (v : Bool) : Word := if v then BitVec.ofNat 32 (2 ^ n) else 0

/-- The value of STATUS (R179, R192). -/
def State.statusValue (s : State) : Word :=
  bit 0 s.notice ||| bit 1 s.houseFault ||| (s.partState.code <<< 8)

/-- What a read of a register returns at this moment (R177, R192). -/
def State.readRegister (s : State) : Register → Word
  | .ident => Config.ident
  | .control => bit 0 s.runBit ||| bit 1 s.noticeEn
  | .status => s.statusValue
  | .houseTime => s.houseTime
  | .tableBaseLo => s.tableBaseLo
  | .tableBaseHi => s.tableBaseHi
  | .tableCount => s.tableCount

/-- What a read at a byte offset of the register window returns; none where no register lies (log entry 35). -/
def State.readWindow (s : State) (offset : Byte) : Option Word := (registerAt offset).map s.readRegister

/-! ## Result conditions (R155, R192) -/

def cTaken : Byte := 0x01#8
def cIllegal : Byte := 0x02#8
def cParameter : Byte := 0x04#8
def cSequence : Byte := 0x08#8
def cRegion : Byte := 0x10#8
def cBusy : Byte := 0x20#8
def cTagReset : Byte := 0x40#8
def cPartial : Byte := 0x80#8

/-- TAG_RESET where `v`, else no condition. -/
def tagResetBit (v : Bool) : Byte := if v then cTagReset else 0

end Sys2Proof.Machine
end

