-- ==== Sys2Proof/Machine/Mixer.lean ====
section
/-! DEFINITION. The Narration Mixer (05_narration_and_the_mixer.md): rings, alignment, the reading of source
samples, ducking and the mix, and the directives and resets that touch them. Every function is of one mixer
or one ring alone. -/

namespace Sys2Proof.Machine

/-! ## Blocks of a ring -/

/-- One past the last show tick a block covers, without wrap (R76). -/
def Block.stop (b : Block) : Nat := b.start.toNat + 2 * b.samples.length

/-- A held block that ends at or before the show time `x` (R82, R83). -/
def RingBlock.endsBy (x : Word) (b : RingBlock) : Bool :=
  match b.state with
  | .held blk => blk.stop ≤ x.toNat
  | .failed => false
  | .reading => false

/-- Failed blocks at the head are taken at once (R79; log entry 10). -/
def dropFailed : List RingBlock → Word → List RingBlock × Word
  | [], take => ([], take)
  | b :: rest, take =>
    match b.state with
    | .failed => dropFailed rest (take + 1)
    | .reading => (b :: rest, take)
    | .held _ => (b :: rest, take)

/-- Take the failed blocks that have become current. -/
def Ring.settle (r : Ring) : Ring :=
  let (blocks, take) := dropFailed r.blocks r.take
  { r with blocks := blocks, take := take }

/-- Blocks the ring holds (R77). -/
def Ring.holds (r : Ring) : Nat := min (r.fill - r.take).toNat r.capacity

/-- The block the prefetch would ask for next, if it asks for one (R79). -/
def Ring.wants (r : Ring) : Option Word :=
  if r.blocks.length < 3 ∧ r.blocks.length < r.holds then some (r.take + BitVec.ofNat 32 r.blocks.length)
  else none

/-- Offset of block `number` in the ring's region (R75). -/
def Ring.offsetOf (r : Ring) (number : Word) : Nat := number.toNat % r.capacity * 512

/-- A read of block `number` is issued (R79). -/
def Ring.addReading (r : Ring) (number : Word) : Ring :=
  { r with blocks := r.blocks ++ [{ number := number, state := .reading }] }

/-- The read of block `number` ends (R79): its block, or a failed one, takes its place in block order. -/
def Ring.blockDone (r : Ring) (number : Word) (st : BlockState) : Ring :=
  Ring.settle { r with blocks := r.blocks.map fun b =>
      if b.number = number ∧ b.state = .reading then { b with state := st } else b }

/-! ## Reading a ring (R82 to R85) -/

/-- A source or output sample: its value, and whether it is active for ducking (R87). -/
structure Sample where
  value : Half
  active : Bool
  deriving DecidableEq, Repr

/-- Gap silence, filler silence and the samples of an unbound ring (R80, R83, R84). -/
def quiet : Sample := { value := 0, active := false }

/-- What reading a run of source samples leaves: the ring, the samples, the reports in order, and whether a
filler sample was read while PLAYING or STARVED (R85). -/
structure RingRead where
  ring : Ring
  samples : List Sample
  reports : List Report
  short : Bool
  deriving DecidableEq, Repr

/-- R84, R85: filler silence. -/
def Ring.filler (r : Ring) (name : RingName) : RingRead :=
  match r.condition with
  | .resting => { ring := r, samples := [quiet], reports := [], short := false }
  | .playing =>
    { ring := { r with condition := .starved }, samples := [quiet]
      reports := [.narrationUnderrun name r.take], short := true }
  | .starved => { ring := r, samples := [quiet], reports := [], short := true }

/-- R85: the condition after a sample is read from a block, `ends` where it is the last sample of a block
with the LAST flag. -/
def conditionAfter (ends : Bool) : RingCondition := if ends then .resting else .playing

/-- R83, last case but one, and R85: the sample of block `b` at position `x`; `rest` are the blocks behind
it. After its last sample the block is taken. -/
def Ring.playSample (r : Ring) (name : RingName) (x : Word) (b : RingBlock) (blk : Block)
    (rest : List RingBlock) : RingRead :=
  let i := (x.toNat - blk.start.toNat) / 2
  let last := i + 1 = blk.samples.length
  let r1 := { r with condition := conditionAfter (last && blk.last) }
  { ring := if last then Ring.settle { r1 with blocks := rest, take := r.take + 1 }
      else { r1 with blocks := b :: rest }
    samples := [{ value := blk.samples.getD i 0, active := !blk.silent }]
    reports := if r.condition = .starved then [.narrationResumed name] else []
    short := false }

/-- R83: one source sample at position `x`; the list is the ring's blocks. -/
def Ring.readAt (name : RingName) (x : Word) : List RingBlock → Ring → RingRead
  | [], r => Ring.filler { r with blocks := [] } name
  | b :: rest, r =>
    match b.state with
    | .reading => Ring.filler { r with blocks := b :: rest } name
    | .failed => Ring.readAt name x rest { r with take := r.take + 1 }
    | .held blk =>
      if blk.stop ≤ x.toNat then Ring.readAt name x rest { r with take := r.take + 1 }
      else if x.toNat + 2 ≤ blk.start.toNat then
        { ring := { r with blocks := b :: rest }, samples := [quiet], reports := [], short := false }
      else r.playSample name x b blk rest

/-- `n` source samples from position `x`, 2 show ticks apart (R83). -/
def Ring.readRun (name : RingName) : Nat → Word → Ring → RingRead
  | 0, _, r => { ring := r, samples := [], reports := [], short := false }
  | n + 1, x, r =>
    let first := Ring.readAt name x r.blocks r
    let more := Ring.readRun name n (x + 2) first.ring
    { ring := more.ring, samples := first.samples ++ more.samples
      reports := first.reports ++ more.reports, short := first.short || more.short }

/-- The alignments of R82. -/
inductive Alignment where
  | resync | drop | again | normal
  deriving DecidableEq, Repr

/-- R82: the alignment against the show time `e` of the boundary record. -/
def Ring.alignment (r : Ring) (e : Word) : Alignment :=
  let d := (e - r.position).toInt
  if r.resync ∨ d.natAbs > 480 then .resync
  else if d ≥ 2 then .drop
  else if d ≤ -2 then .again
  else .normal

/-- Source samples read (R82). -/
def Alignment.sources : Alignment → Nat
  | .resync => 240
  | .drop => 241
  | .again => 239
  | .normal => 240

/-- Output samples from source samples (R82): a drop leaves out the 121st source, a repeat gives the 120th
twice. -/
def Alignment.outputs (a : Alignment) (l : List Sample) : List Sample :=
  match a with
  | .resync => l
  | .drop => l.take 120 ++ l.drop 121
  | .again => l.take 120 ++ l.getD 119 quiet :: l.drop 120
  | .normal => l

/-- R82: a resync to `e` takes as stale every on-chip block that ends at or before it. -/
def Ring.resynced (r : Ring) (e : Word) : Ring :=
  Ring.settle { r with
    position := e, resync := false
    blocks := r.blocks.filter fun b => !b.endsBy e
    take := r.take + BitVec.ofNat 32 (r.blocks.countP fun b => b.endsBy e) }

/-- A ring's whole frame against the show time `e` (R82 to R85): the ring, its output samples, its reports. -/
def Ring.play (name : RingName) (e : Word) (r : Ring) : Ring × List Sample × List Report :=
  let al := r.alignment e
  let r1 := if al = .resync then r.resynced e else r
  let got := Ring.readRun name al.sources r1.position r1
  ({ got.ring with
      position := r1.position + BitVec.ofNat 32 (2 * al.sources)
      underruns := if got.short then got.ring.underruns + 1 else got.ring.underruns },
    al.outputs got.samples, got.reports)

/-! ## Ducking and the mix (R87 to R89) -/

/-- R88: the bed gain one output sample later. -/
def duck (m : MixSettings) (active : Bool) (g : Nat) : Nat :=
  let target := if active then m.gd.toNat else m.gb.toNat
  if g > target then max target (g - m.attack.toNat)
  else if g < target then min target (g + m.release.toNat)
  else g

/-- R89: the output before it is limited. -/
def mixRaw (m : MixSettings) (n b : Half) (g : Nat) : Int :=
  (n.toInt * m.gn.toNat + b.toInt * g + 16384) / 32768

/-- R89: an output limited to the 16-bit range. -/
def mixLimit (y : Int) : Half := BitVec.ofInt 16 (max (-32768) (min 32767 y))

/-- R89: the output was limited. -/
def clips (y : Int) : Bool := y > 32767 || y < -32768

/-- R88, R89 over a frame: the gain after it, the output samples, how many were limited. -/
def mixRun (m : MixSettings) : List Sample → List Sample → Nat → Nat × List Half × Nat
  | n :: ns, b :: bs, g =>
    let g1 := duck m n.active g
    let y := mixRaw m n.value b.value g1
    let (g2, ys, clipped) := mixRun m ns bs g1
    (g2, mixLimit y :: ys, (if clips y then 1 else 0) + clipped)
  | [], _, g => (g, [], 0)
  | _ :: _, [], g => (g, [], 0)

/-! ## The frame (R80, R86, R90) -/

/-- The mixer plays only in these clock states of the boundary record (R80). -/
def ClockState.plays : ClockState → Bool
  | .locked => true
  | .flywheel => true
  | .idle => false
  | .searching => false
  | .acquiring => false
  | .paused => false
  | .lost => false

def silentRun : List Half := List.replicate 240 0

/-- A narration section of a frame that plays: SILENT when all its samples are 0 (R90). -/
def playedSection (channelB : Bool) (ys : List Half) : AirSection :=
  .narration channelB (ys.all (· == 0)) ys

/-- A ring used in this frame plays, one that is not gives silence and stays as it is (R80). -/
def Ring.playIf (use : Bool) (name : RingName) (e : Word) (r : Ring) : Ring × List Sample × List Report :=
  if use then r.play name e else (r, List.replicate 240 quiet, [])

/-- The narration mask's two marks (R161). -/
def enabledA (mask : BitVec 2) : Bool := mask.getLsbD 0
def enabledB (mask : BitVec 2) : Bool := mask.getLsbD 1

/-- Which rings a frame uses under the narration mask (R80). -/
def Mixer.usesA (m : Mixer) (mask : BitVec 2) : Bool := enabledA mask && m.ringA.bound
def Mixer.usesB (m : Mixer) (mask : BitVec 2) : Bool := enabledB mask && m.ringB.bound
def Mixer.usesBed (m : Mixer) (mask : BitVec 2) : Bool := (enabledA mask || enabledB mask) && m.bed.bound

/-- R80: the sections of a muted frame. -/
def mutedSections (mask : BitVec 2) : List AirSection :=
  (if enabledA mask then [.narration false true silentRun] else [])
    ++ (if enabledB mask then [.narration true true silentRun] else [])

/-- R82 to R90: a frame that plays against show time `e`. -/
def Mixer.playFrame (m : Mixer) (mask : BitVec 2) (e : Word) : Mixer × List AirSection × List Report :=
  let (ringA, na, ra) := m.ringA.playIf (m.usesA mask) .a e
  let (ringB, nb, rb) := m.ringB.playIf (m.usesB mask) .b e
  let (bed, bs, rbed) := m.bed.playIf (m.usesBed mask) .bed e
  let (ga, ya, ca) := if enabledA mask then mixRun m.settings na bs m.gainA else (m.gainA, [], 0)
  let (gb, yb, cb) := if enabledB mask then mixRun m.settings nb bs m.gainB else (m.gainB, [], 0)
  ({ m with
      ringA := ringA, ringB := ringB, bed := bed, gainA := ga, gainB := gb
      clippedA := m.clippedA + BitVec.ofNat 32 ca, clippedB := m.clippedB + BitVec.ofNat 32 cb },
    (if enabledA mask then [playedSection false ya] else [])
      ++ (if enabledB mask then [playedSection true yb] else []),
    ra ++ rb ++ rbed)

/-- R80, R90: the frame's narration sections under the boundary record. -/
def Mixer.frame (m : Mixer) (mask : BitVec 2) (rec : BoundaryRecord) :
    Mixer × List AirSection × List Report :=
  if rec.state.plays then m.playFrame mask rec.showTime else (m, mutedSections mask, [])

/-! ## Directives, signals and resets (R91 to R96) -/

def Mixer.ring (m : Mixer) : RingName → Ring
  | .a => m.ringA
  | .b => m.ringB
  | .bed => m.bed

def Mixer.setRing (m : Mixer) (name : RingName) (r : Ring) : Mixer :=
  match name with
  | .a => { m with ringA := r }
  | .b => { m with ringB := r }
  | .bed => { m with bed := r }

def Mixer.modRing (m : Mixer) (name : RingName) (f : Ring → Ring) : Mixer :=
  m.setRing name (f (m.ring name))

/-- Change all three rings. -/
def Mixer.mapRings (m : Mixer) (f : Ring → Ring) : Mixer :=
  { m with ringA := f m.ringA, ringB := f m.ringB, bed := f m.bed }

/-- R91: SET_MIX after its clamps. -/
def clampMix (gn gb gd attack release : Half) : MixSettings :=
  { gn := gn, gb := gb, gd := if gd.toNat > gb.toNat then gb else gd
    attack := if attack = 0 then 1 else attack, release := if release = 0 then 1 else release }

/-- R92: BIND of the ring's role; `capacity` is R75's. -/
def Ring.bindTo (r : Ring) (capacity : Nat) : Ring :=
  { r with
    bound := true, capacity := capacity, take := 0, fetchGen := r.fetchGen + 1, blocks := [], resync := true
    condition := .resting }

/-- R93: RELEASE of the ring's role. -/
def Ring.unbind (r : Ring) : Ring :=
  { r with bound := false, fetchGen := r.fetchGen + 1, blocks := [] }

/-- R94: a seat signal or a clear order sets every resync mark. -/
def Mixer.markResync (m : Mixer) : Mixer := m.mapRings fun r => { r with resync := true }

/-- R95: a ring at HALT. -/
def Ring.halt (r : Ring) : Ring :=
  { r with blocks := [], fetchGen := r.fetchGen + 1, resync := true, condition := .resting }

/-- R95: HALT. -/
def Mixer.halt (m : Mixer) : Mixer :=
  { m.mapRings Ring.halt with gainA := m.settings.gb.toNat, gainB := m.settings.gb.toNat }

/-- R148: at becoming DARK the mixer acts as at HALT and every ring becomes unbound. -/
def Mixer.dark (m : Mixer) : Mixer := m.halt.mapRings fun r => { r with bound := false }

/-- R95: RUN clears the five counters. -/
def Mixer.run (m : Mixer) : Mixer :=
  { m.mapRings fun r => { r with underruns := 0 } with clippedA := 0, clippedB := 0 }

/-- R96, column "Part start, part stop", for one ring. -/
def Ring.partChange (r : Ring) : Ring :=
  { r with
    bound := false, position := 0, resync := true, blocks := [], fetchGen := r.fetchGen + 1, take := 0
    condition := .resting }

/-- R96, column "Part start, part stop". -/
def Mixer.partChange (m : Mixer) : Mixer := m.mapRings Ring.partChange

/-- R96, column "DARK becomes HALTED": default settings, and gains at the default gb (R91). -/
def Mixer.becomeHalted (m : Mixer) : Mixer :=
  { m with settings := .initial, gainA := 0, gainB := 0 }

/-- R150: the three fill counts of a head read. -/
def Mixer.setFills (m : Mixer) (a b bed : Word) : Mixer :=
  { m with
    ringA := { m.ringA with fill := a }, ringB := { m.ringB with fill := b }
    bed := { m.bed with fill := bed } }

end Sys2Proof.Machine
end

