-- ==== Sys2Proof/Machine/Builder.lean ====
section
/-! DEFINITION. The Air Builder (06_air_frames.md): requests from the Sequencer, signals of the clock, the
composition of a frame, and the directives and resets that touch the Builder. Every function is of one
builder alone. -/

namespace Sys2Proof.Machine

/-! ## Requests (R100 to R104, R109, R110) -/

/-- Causes of a removal request (R52). -/
inductive Removal where
  | expired | displaced | clearCue | screenClear | bad | retracted
  deriving DecidableEq, Repr

/-- Whether an END may be queued (R52). -/
def Removal.endMayQueue : Removal → Bool
  | .clearCue => false
  | .expired => true
  | .displaced => true
  | .screenClear => true
  | .bad => true
  | .retracted => true

/-- The entry is the START entry of `cue`. -/
def QueueEntry.isStartOf (cue : CueId) (e : QueueEntry) : Bool := e.kind == .start && e.cue == some cue

/-- R100: an entry joins at the newest end, or a full queue refuses it and counts an overflow. -/
def Builder.join (b : Builder) (e : QueueEntry) : Builder :=
  if b.queue.length < Config.queueLimit then { b with queue := b.queue ++ [e] }
  else { b with overflow := b.overflow + 1 }

/-- R102: a START request; `copies` is the copies setting N. For a cue whose START entry is still queued R102 says
that the queue stays as it is; that no second air record is made either is the model's choice (log entry 33). -/
def Builder.startRequest (b : Builder) (copies : Nat) (channel : Channel) (cue : CueId)
    (reentered textHeld : Bool) : Builder :=
  if b.queue.any (·.isStartOf cue) then b
  else
    let b1 : Builder := { b with records := b.records ++
      [{ cue := cue, channel := channel, reentered := reentered, textHeld := textHeld, aired := false
         countdown := 0 }] }
    b1.join { kind := .start, channel := channel, cue := some cue, copies := copies + 1, waiting := !textHeld }

/-- R103: a text-ready notice. -/
def Builder.textReady (b : Builder) (cue : CueId) : Builder :=
  if b.records.any (·.cue == cue) then
    { b with
      records := b.records.map fun r => if r.cue = cue then { r with textHeld := true } else r
      queue := b.queue.map fun e => if e.isStartOf cue then { e with waiting := false } else e }
  else b

/-- R104: a removal request of `cue` on `channel`. -/
def Builder.removal (b : Builder) (copies : Nat) (channel : Channel) (cue : CueId) (cause : Removal) : Builder :=
  match b.records.find? (·.cue == cue) with
  | none => b
  | some r =>
    let b1 : Builder := { b with queue := b.queue.filter fun e => !e.isStartOf cue }
    let b2 : Builder :=
      if cause.endMayQueue && r.aired then
        b1.join { kind := .finish, channel := channel, cue := some cue, copies := copies + 1, waiting := false }
      else b1
    let b3 : Builder := if cause = .expired ∧ !r.aired then { b2 with lateCues := b2.lateCues + 1 } else b2
    { b3 with records := b3.records.filter fun x => !(x.cue == cue) }

/-- R109: a CLEAR request of `channel`. -/
def Builder.clearRequest (b : Builder) (copies : Nat) (channel : Channel) : Builder :=
  let b1 : Builder := { b with queue := b.queue.filter fun e => !(e.kind == .finish && e.channel == channel) }
  b1.join { kind := .clear, channel := channel, cue := none, copies := copies + 1, waiting := false }

/-- R110: the clock's seat signal or clear order keeps the CLEAR entries alone. -/
def Builder.signal (b : Builder) : Builder := { b with queue := b.queue.filter fun e => e.kind == .clear }

/-! ## Composition of a frame (R98, R99, R105 to R108) -/

/-- R108: the hold of a cue that ends at `finish`, in a frame of show time `s`. -/
def holdOf (finish s : Word) : Nat :=
  if finish.toNat > s.toNat then min ((finish.toNat - s.toNat + 479) / 480) 65535 else 1

/-- The active cue record of a cue. -/
def findActive (active : Vector (List ActiveCue) 4) (channel : Channel) (cue : CueId) : Option ActiveCue :=
  active[channel].find? fun a => a.cue == cue

/-- R108: a START section of the active cue `a`. -/
def startSection (channel : Channel) (a : ActiveCue) (refresh reentered : Bool) (s : Word) : AirSection :=
  .start channel a.cue refresh reentered (holdOf a.finish s) a.row a.style (a.text.getD [])

/-- The section of a queue entry (R108, R109) in a frame of show time `s`. A START takes its data from the
active cue record and its re-entered mark from the air record. -/
def entrySection (records : List AirRecord) (active : Vector (List ActiveCue) 4) (s : Word)
    (e : QueueEntry) : Option AirSection :=
  match e.kind, e.cue with
  | .clear, _ => some (.clear e.channel)
  | .finish, some cue => some (.finish e.channel cue)
  | .finish, none => none
  | .start, none => none
  | .start, some cue =>
    match findActive active e.channel cue, records.find? (·.cue == cue) with
    | some a, some r => some (startSection e.channel a false r.reentered s)
    | _, _ => none

/-- What the queue walk leaves: the queue, the sections placed, the bytes used, the cues whose START was
placed. -/
structure Walked where
  queue : List QueueEntry
  sections : List AirSection
  used : Nat
  started : List CueId
  deriving DecidableEq, Repr

/-- The cue of a START entry, for its record's marks (R105). -/
def QueueEntry.startedCue (e : QueueEntry) : List CueId :=
  match e.kind, e.cue with
  | .start, some cue => [cue]
  | .start, none => []
  | .finish, _ => []
  | .clear, _ => []

/-- An entry that has aired once loses a copy and leaves at 0 (R100). -/
def QueueEntry.aired (e : QueueEntry) : List QueueEntry :=
  if e.copies ≤ 1 then [] else [{ e with copies := e.copies - 1 }]

/-- R105: the queue walk from `used` payload bytes. An entry waiting for text is passed over; the first ready
entry that does not fit ends the walk. -/
def walkQueue (sec : QueueEntry → Option AirSection) : List QueueEntry → Nat → Walked
  | [], used => { queue := [], sections := [], used := used, started := [] }
  | e :: rest, used =>
    match if e.waiting then none else sec e with
    | none =>
      let w := walkQueue sec rest used
      { w with queue := e :: w.queue }
    | some x =>
      if used + x.size ≤ Config.payloadLimit then
        let w := walkQueue sec rest (used + x.size)
        { queue := e.aired ++ w.queue, sections := x :: w.sections, used := w.used
          started := e.startedCue ++ w.started }
      else { queue := e :: rest, sections := [], used := used, started := [] }

/-- R105, R107: placing a START or a refresh sets the aired mark and the countdown. -/
def AirRecord.placed (refresh : Nat) (r : AirRecord) : AirRecord :=
  { r with aired := true, countdown := refresh }

/-- R106: due for refresh, the queue as the walk left it. -/
def AirRecord.due (queue : List QueueEntry) (r : AirRecord) : Bool :=
  r.countdown == 0 && r.textHeld && !queue.any (·.isStartOf r.cue)

/-- The refresh section of a record that is due (R106 to R108). -/
def AirRecord.refreshSection (queue : List QueueEntry) (active : Vector (List ActiveCue) 4) (s : Word)
    (r : AirRecord) : Option AirSection :=
  if r.due queue then (findActive active r.channel r.cue).map fun a => startSection r.channel a true r.reentered s
  else none

/-- R107: refreshes from `used` payload bytes, oldest record first; `sec` gives the section of a due record.
A due record that does not fit is skipped. -/
def placeRefreshes (refresh : Nat) (sec : AirRecord → Option AirSection) :
    List AirRecord → Nat → List AirRecord × List AirSection
  | [], _ => ([], [])
  | r :: rest, used =>
    match (sec r).filter fun x => used + x.size ≤ Config.payloadLimit with
    | some x =>
      let more := placeRefreshes refresh sec rest (used + x.size)
      (r.placed refresh :: more.1, x :: more.2)
    | none =>
      let more := placeRefreshes refresh sec rest used
      (r :: more.1, more.2)

/-- R106: the countdowns at the start of a frame. -/
def stepCountdowns (records : List AirRecord) : List AirRecord :=
  records.map fun r => { r with countdown := r.countdown - 1 }

/-- R111: number the frame and count it. -/
def Builder.numbered (b : Builder) : Builder :=
  { b with sequence := b.sequence + 1, framesBuilt := b.framesBuilt + 1 }

/-- R98: an ordinary frame under the boundary record, with the narration sections of the Mixer. -/
def Builder.build (b : Builder) (k : Aud) (channels : ChannelSettings) (active : Vector (List ActiveCue) 4)
    (rec : BoundaryRecord) (narration : List AirSection) : Builder × AirFrame :=
  let records := stepCountdowns b.records
  let w := walkQueue (entrySection records active rec.showTime) b.queue (payloadSize narration)
  let marked := records.map fun r => if r.cue ∈ w.started then r.placed channels.refresh else r
  let (records2, refreshes) := 
    placeRefreshes channels.refresh (AirRecord.refreshSection w.queue active rec.showTime) marked w.used
  ({ b with queue := w.queue, records := records2 }.numbered,
    { auditorium := k, clockState := rec.state, sequence := b.sequence, showTime := rec.showTime
      closing := false, sections := narration ++ w.sections ++ refreshes })

/-- The four caption channels in order. -/
def channelList : List Channel := [0, 1, 2, 3]

/-- The channel is enabled in the caption mask (R161). -/
def captionEnabled (mask : BitVec 4) (c : Channel) : Bool := mask.getLsbD c.val

/-- R113: a closing frame: silent narration and one CLEAR for each enabled channel. -/
def Builder.buildClosing (b : Builder) (k : Aud) (channels : ChannelSettings) (rec : BoundaryRecord)
    (narration : List AirSection) : Builder × AirFrame :=
  ({ b with closing := b.closing - 1 }.numbered,
    { auditorium := k, clockState := rec.state, sequence := b.sequence, showTime := rec.showTime
      closing := true
      sections := narration
        ++ (channelList.filter (captionEnabled channels.captions ·)).map AirSection.clear })

/-! ## Directives and resets (R113, R115) -/

/-- R113: HALT, with the copies setting N. -/
def Builder.halt (b : Builder) (copies : Nat) : Builder :=
  { b with queue := [], records := [], closing := copies + 1 }

/-- R115: RUN clears the three counters. -/
def Builder.run (b : Builder) : Builder :=
  { b with queue := [], records := [], closing := 0, lateCues := 0, overflow := 0, framesBuilt := 0 }

/-- R115: part stop, and the auditorium becoming DARK. -/
def Builder.partStop (b : Builder) : Builder := { b with queue := [], records := [], closing := 0 }

/-- R115, column "Part start". -/
def Builder.partStart (b : Builder) : Builder := { b.partStop with sequence := 0 }

end Sys2Proof.Machine
end

