-- ==== Sys2Proof/Machine/Clock.lean ====
section
/-! DEFINITION. The Show Clock (02_the_show_clock.md): the work of a frame boundary, the treatment of a
position report, and the directives and resets that touch it. Every function is of one clock alone. What the
clock sends is in its answer: the reports it makes, in order, and the signal it delivers. -/

namespace Sys2Proof.Machine

/-- What a clock delivers to its Sequencer, Mixer and Builder (R23, R26). -/
inductive Signal where
  | seat (target : Word)
  | clear
  deriving DecidableEq, Repr

/-- A position report (R9). -/
structure PositionReport where
  state : ServerState
  showTime : Word
  arrival : Word
  deriving DecidableEq, Repr

/-- What a step of the clock leaves: the clock, the reports it makes in order, the signal it delivers. -/
structure ClockAnswer where
  clock : Clock
  reports : List Report
  signal : Option Signal
  deriving DecidableEq, Repr

/-! ## The frame boundary -/

/-- The clock advances S in this state (R14). -/
def ClockState.advances : ClockState → Bool
  | .acquiring => true
  | .locked => true
  | .flywheel => true
  | .idle => false
  | .searching => false
  | .paused => false
  | .lost => false

/-- The clock counts silence in this state (R15). -/
def ClockState.counts : ClockState → Bool
  | .searching => true
  | .acquiring => true
  | .locked => true
  | .flywheel => true
  | .paused => true
  | .idle => false
  | .lost => false

/-- T of R14, in units of 2^-24 show tick, at house time `h`. -/
def Clock.drift (c : Clock) (h : Word) : Int := (h - c.anchor).toNat * c.eps + c.fraction

/-- The advance of R14 at house time `h`, never below 0. -/
def Clock.advance (c : Clock) (h : Word) : Nat :=
  ((h - c.anchor).toNat + c.drift h / 16777216 + c.slew).toNat

/-- A show time held to 4,294,967,295 (R14). -/
def clampShowTime (n : Nat) : Word := BitVec.ofNat 32 (min n Config.showTimeMax)

/-- The show-time work of a boundary at house time `h` (R14). -/
def Clock.moveTime (c : Clock) (h : Word) : Clock :=
  if c.state.advances then
    { c with
      showTime := clampShowTime (c.showTime.toNat + c.advance h)
      fraction := (c.drift h % 16777216).toNat
      anchor := h
      slew := 0 }
  else { c with anchor := h }

/-- The silence work of a boundary (R15). The clear order of entering LOST is in the answer. -/
def Clock.countSilence (c : Clock) : ClockAnswer :=
  if c.state.counts then
    let silence := c.silence + 1
    if silence > c.loop.holdover then
      { clock := { c with silence := silence, state := .lost, slew := 0 }
        reports := [.clockLost], signal := some .clear }
    else if c.state = .locked ∧ silence > 10 then
      { clock := { c with silence := silence, state := .flywheel, slew := 0 }
        reports := [.clockFlywheel], signal := none }
    else { clock := { c with silence := silence }, reports := [], signal := none }
  else { clock := c, reports := [], signal := none }

/-- Write the boundary record (R16). -/
def Clock.writeRecord (c : Clock) (h : Word) : Clock :=
  { c with record :=
      { showTime := c.showTime, state := c.state, eps := c.eps, tally := c.tally, seats := c.seats
        houseTime := h } }

/-- The clock's whole work at a frame boundary at house time `h` (R14 to R16). -/
def Clock.boundary (c : Clock) (h : Word) : ClockAnswer :=
  let a := (c.moveTime h).countSilence
  { a with clock := a.clock.writeRecord h }

/-! ## Steering (R19 to R22) -/

/-- Limit `v` to the range -`m` to `m`. -/
def limitTo (m v : Int) : Int := max (-m) (min m v)

/-- R19: the pending slew after an error `e`; e / 4 is rounded toward zero. -/
def Clock.slewed (c : Clock) (e : Int) : Int := limitTo 48 (c.slew + e.tdiv 4)

/-- R20: acc for the current error `e`. -/
def Clock.filterSum (c : Clock) (e : Int) : Int := c.loop.c0 * e + c.loop.c1 * c.e1 + c.loop.c2 * c.e2

/-- R20: the rate change; the shift rounds halves upward. -/
def rateChange (pm : Nat) (acc : Int) : Int := if pm = 0 then acc else (acc + 2 ^ (pm - 1)) / 2 ^ pm

/-- R21: the rate offset before saturation. -/
def Clock.rawEps (c : Clock) (e : Int) : Int := c.eps + rateChange c.loop.pm (c.filterSum e)

/-- R22: the tally after a report whose unsaturated rate offset is `raw`. -/
def Clock.movedTally (c : Clock) (raw : Int) : Int :=
  if c.loop.epsMax = 0 then c.tally
  else if raw > c.loop.epsMax then c.tally + 1
  else if raw < -(c.loop.epsMax : Int) then c.tally - 1
  else c.tally

/-- R19 to R22 in order: slew, filter with saturation, history, tally. The OFF_SPEED report, if the tally
reaches 32 in magnitude, is in the answer. -/
def Clock.steer (c : Clock) (e : Int) : Clock × List Report :=
  let raw := c.rawEps e
  let eps := limitTo c.loop.epsMax raw
  let tally := c.movedTally raw
  let c1 := { c with slew := c.slewed e, eps := eps, e1 := e, e2 := c.e1 }
  if tally = 32 ∨ tally = -32 then
    ({ c1 with tally := 0 }, [.offSpeed (tally = -32) eps])
  else ({ c1 with tally := tally }, [])

/-! ## Seat, freeze, resume, stop (R23 to R26) -/

/-- R23: seat to the position of the report `p`. -/
def Clock.seat (c : Clock) (p : PositionReport) : ClockAnswer :=
  { clock :=
      { c with
        showTime := p.showTime, anchor := p.arrival, fraction := 0, slew := 0, e1 := 0, e2 := 0
        seats := c.seats + 1
        state := if p.state = .pause then .paused else .acquiring
        acquire := if p.state = .pause then c.acquire else 1 }
    reports := [.clockSeated c.showTime p.showTime]
    signal := some (.seat p.showTime) }

/-- R24: freeze at the prediction, where it does not take S back or past the greatest show time. -/
def Clock.freeze (c : Clock) (pred : Int) (p : PositionReport) : ClockAnswer :=
  { clock :=
      { c with
        showTime := if pred < c.showTime.toNat then c.showTime else clampShowTime pred.toNat
        anchor := p.arrival, slew := 0, state := .paused }
    reports := [.clockPaused], signal := none }

/-- R25: resume at the larger of S and P. -/
def Clock.resume (c : Clock) (p : PositionReport) : ClockAnswer :=
  { clock :=
      { c with
        showTime := if c.showTime.toNat < p.showTime.toNat then p.showTime else c.showTime
        anchor := p.arrival, slew := 0, state := .locked }
    reports := [.clockResumed], signal := none }

/-- A STOP report: to SEARCHING with CLOCK_STOPPED, and a clear order where `order` (R26 to R31). -/
def Clock.stopped (c : Clock) (order : Bool) : ClockAnswer :=
  { clock := { c with slew := 0, state := .searching }
    reports := [.clockStopped], signal := if order then some .clear else none }

/-! ## Position reports (R17, R27 to R31) -/

/-- R17: the prediction for a report that arrived at `arrival`, a signed number without wrap or clamp. In
PAUSED it is S itself. -/
def Clock.predict (c : Clock) (arrival : Word) : Int :=
  if c.state = .paused then c.showTime.toNat
  else c.showTime.toNat + (arrival - c.anchor).toInt + c.slew

/-- R17: the error of a report. -/
def Clock.error (c : Clock) (p : PositionReport) : Int := p.showTime.toNat - c.predict p.arrival

/-- R28: a PLAY within the window in ACQUIRING. -/
def Clock.acquireStep (c : Clock) (e : Int) : ClockAnswer :=
  let (c1, off) := c.steer e
  let count := c1.acquire + 1
  if count ≥ 3 then
    { clock := { c1 with acquire := count, state := .locked }
      reports := off ++ [.clockLocked c1.showTime c1.eps], signal := none }
  else { clock := { c1 with acquire := count }, reports := off, signal := none }

/-- R29: a PLAY within the threshold in LOCKED. -/
def Clock.lockedStep (c : Clock) (e : Int) : ClockAnswer :=
  let (c1, off) := c.steer e
  { clock := c1, reports := off, signal := none }

/-- R29: a PLAY within the threshold in FLYWHEEL: back to LOCKED, and CLOCK_LOCKED after steering. -/
def Clock.flywheelStep (c : Clock) (e : Int) : ClockAnswer :=
  let (c1, off) := c.steer e
  { clock := { c1 with state := .locked }, reports := off ++ [.clockLocked c1.showTime c1.eps]
    signal := none }

/-- R28: a report in ACQUIRING. -/
def Clock.reportAcquiring (c : Clock) (p : PositionReport) : ClockAnswer :=
  match p.state with
  | .play => if (c.error p).natAbs ≤ 240 then c.acquireStep (c.error p) else c.seat p
  | .pause => if (c.error p).natAbs ≤ 240 then c.freeze (c.predict p.arrival) p else c.seat p
  | .stop => c.stopped true

/-- R29, R30: a report in LOCKED. -/
def Clock.reportLocked (c : Clock) (p : PositionReport) : ClockAnswer :=
  match p.state with
  | .play => if (c.error p).natAbs ≤ 2400 then c.lockedStep (c.error p) else c.seat p
  | .pause => if (c.error p).natAbs ≤ 2400 then c.freeze (c.predict p.arrival) p else c.seat p
  | .stop => c.stopped true

/-- R29, R30: a report in FLYWHEEL. -/
def Clock.reportFlywheel (c : Clock) (p : PositionReport) : ClockAnswer :=
  match p.state with
  | .play => if (c.error p).natAbs ≤ 2400 then c.flywheelStep (c.error p) else c.seat p
  | .pause => if (c.error p).natAbs ≤ 2400 then c.freeze (c.predict p.arrival) p else c.seat p
  | .stop => c.stopped true

/-- R31: a report in PAUSED. -/
def Clock.reportPaused (c : Clock) (p : PositionReport) : ClockAnswer :=
  match p.state with
  | .play => if (c.error p).natAbs ≤ 2400 then c.resume p else c.seat p
  | .pause => if (c.error p).natAbs > 240 then c.seat p else { clock := c, reports := [], signal := none }
  | .stop => c.stopped true

/-- R27: a report in SEARCHING. -/
def Clock.reportSearching (c : Clock) (p : PositionReport) : ClockAnswer :=
  match p.state with
  | .play => c.seat p
  | .pause => c.seat p
  | .stop => { clock := c, reports := [], signal := none }

/-- R27: a report in LOST. -/
def Clock.reportLost (c : Clock) (p : PositionReport) : ClockAnswer :=
  match p.state with
  | .play => c.seat p
  | .pause => c.seat p
  | .stop => c.stopped false

/-- R17: a position report taken by the clock. In IDLE it is dropped; else the silence count becomes 0. -/
def Clock.report (c : Clock) (p : PositionReport) : ClockAnswer :=
  let heard := { c with silence := 0 }
  match c.state with
  | .idle => { clock := c, reports := [], signal := none }
  | .searching => heard.reportSearching p
  | .acquiring => heard.reportAcquiring p
  | .locked => heard.reportLocked p
  | .flywheel => heard.reportFlywheel p
  | .paused => heard.reportPaused p
  | .lost => heard.reportLost p

/-! ## Directives and resets (R32 to R35) -/

/-- R35, column "HALT, part stop": the seats count, anchor, record and settings keep their values. -/
def Clock.cleared (c : Clock) : Clock :=
  { c with
    state := .idle, showTime := 0, fraction := 0, eps := 0, slew := 0, e1 := 0, e2 := 0, acquire := 0
    silence := 0, tally := 0 }

/-- R33: return to IDLE; the answer says whether a clear order is delivered. -/
def Clock.toIdle (c : Clock) : Clock × Bool :=
  if c.state = .idle then (c, false) else (c.cleared, true)

/-- R35, column "Part start". -/
def Clock.partStart (c : Clock) : Clock := c.cleared

/-- R32: RUN. -/
def Clock.run (c : Clock) : Clock :=
  { c.cleared with state := .searching, anchor := c.record.houseTime, seats := 0 }

/-- R34: SET_LOOP. A lower limit clamps the rate offset at once, keeping its sign. -/
def Clock.setLoop (c : Clock) (l : LoopSettings) : Clock :=
  { c with loop := l, eps := limitTo l.epsMax c.eps }

end Sys2Proof.Machine
end

