-- ==== Sys2Proof/Machine/Link.lean ====
section
/-! DEFINITION. The Emitter Link (07_emitter_links.md): the handoff, the exchanges of each link state, and
the directives and resets that touch it. Every function is of one link alone; the reports an exchange makes
are in its answer. -/

namespace Sys2Proof.Machine

/-! ## Tokens (R117) -/

def tokenCall (address : BitVec 6) : Byte := 0xC0#8 ||| address.setWidth 8
def tokenOpen : Byte := 0xF6#8
def tokenReopen : Byte := 0xF5#8
def tokenShut : Byte := 0xFD#8
def tokenPoll : Byte := 0x00#8
def tokenHeed : Byte := 0x5A#8
def tokenTaken : Byte := 0x25#8
def tokenCheckFailed : Byte := 0x2B#8
def tokenRefused : Byte := 0x2D#8
def tokenWait : Byte := 0x00#8

/-! ## Slots -/

/-- A frame comes into flight on its first sending; the link calls for it next (R118, R120, R125). -/
def Link.fly (l : Link) (f : AirFrame) : Link :=
  { l with
    state := .calling, frame := some f, retry := false, retryDue := false, called := false, sent := 0
    shutDue := false }

/-- The pending frame, if there is one, comes into flight; else the link is IDLE with an empty slot. R116 gives the
attempt of an empty slot no meaning and R125 does not say what becomes of it; that it is FIRST again is the model's
choice (log entry 34). -/
def Link.advance (l : Link) : Link :=
  match l.next with
  | some f => { l with next := none, finishing := false }.fly f
  | none =>
    { l with
      state := .idle, frame := none, retry := false, retryDue := false, called := false, sent := 0
      shutDue := false, finishing := false }

/-- One more frame dropped (R127). -/
def Link.countDrop (l : Link) : Link := { l with dropped := l.dropped + 1 }

/-- R118: the Builder hands on a frame. -/
def Link.handoff (l : Link) (f : AirFrame) : Link :=
  match l.frame, l.next with
  | none, _ => l.fly f
  | some _, none => { l with next := some f }
  | some _, some _ => { l.countDrop with next := some f }

/-- R126: the unanswered count one drop later, and whether that drop sets the DOWN mark. -/
def Link.unansweredDrop (l : Link) : Link × List Report :=
  let count := if l.unanswered < 50 then l.unanswered + 1 else 50
  let l1 := { l.countDrop with unanswered := count }
  if l.unanswered < 50 ∧ count = 50 then ({ l1 with down := true }, [.linkDown]) else (l1, [])

/-! ## Exchanges -/

/-- R119: the exchange that carries a CALL latches the call settings. -/
def Link.callExchange (l : Link) (channels : ChannelSettings) : Link :=
  if l.state = .calling ∧ !l.called ∧ !l.finishing then
    { l with
      address := channels.address, checkOn := channels.checkOn, called := true
      out := some (tokenCall channels.address) }
  else l

/-- R120: a HEED. -/
def Link.heeded (l : Link) : Link × List Report :=
  ({ l with unanswered := 0, down := false, state := .sending, called := false, sent := 0, shutDue := false },
    if l.down then [.linkUp] else [])

/-- R120, R130: the POLL exchange after a CALL takes `b`. -/
def Link.answerExchange (l : Link) (b : Byte) : Link × List Report :=
  if l.state = .calling ∧ l.called then
    let l := { l with out := some tokenPoll }
    if b = tokenHeed then l.heeded
    else if l.finishing then (l.countDrop.advance, [])
    else
      match l.next with
      | none => ({ l with called := false }, [])
      | some _ =>
        let (l1, rep) := l.unansweredDrop
        (l1.advance, rep)
  else (l, [])

/-- The bytes of SENDING in order (R121): OPEN, header and sections, the two check bytes where the latched
check mode is ON. -/
def Link.stream (l : Link) : List Byte :=
  match l.frame with
  | none => []
  | some f =>
    (if l.retry then tokenReopen else tokenOpen) :: f.bytes
      ++ (if l.checkOn then leHalf (crc f.bytes) else [])

/-- The frame was refused or has its verdict: WAITING with retry due clear. A link that finishes under R130
goes IDLE at once. -/
def Link.toWaiting (l : Link) : Link :=
  if l.finishing then l.advance
  else { l with state := .waiting, retryDue := false, sent := 0, shutDue := false }

/-- R121: one exchange of SENDING takes `b`. The byte taken with the OPEN is ignored. A REFUSED before the
last byte makes the next exchange carry SHUT; with the last byte it drops the frame at once (log entry 13). -/
def Link.sendExchange (l : Link) (b : Byte) : Link :=
  if l.state = .sending then
    if l.shutDue then { l with out := some tokenShut }.countDrop.toWaiting
    else
      let stream := l.stream
      let l1 := { l with out := some (stream.getD l.sent tokenPoll), sent := l.sent + 1 }
      let last := stream.length ≤ l1.sent
      if b = tokenRefused ∧ l.sent ≠ 0 then
        if last then l1.countDrop.toWaiting else { l1 with shutDue := true }
      else if last then { l1 with state := .awaitingVerdict, sent := 0 }
      else l1
  else l

/-- R124: a CHECK_FAILED verdict. -/
def Link.checkFailed (l : Link) : Link :=
  if l.next = none ∧ !l.retry ∧ !l.finishing then
    { l with state := .waiting, retryDue := true, retry := true, retries := l.retries + 1 }
  else l.countDrop.toWaiting

/-- R123, R130: a POLL exchange of AWAITING_VERDICT takes `b`. -/
def Link.verdictExchange (l : Link) (b : Byte) : Link × List Report :=
  if l.state = .awaitingVerdict then
    let l := { l with out := some tokenPoll }
    if b = tokenTaken then (l.toWaiting, [])
    else if b = tokenCheckFailed then (l.checkFailed, [])
    else if b = tokenRefused then (l.countDrop.toWaiting, [])
    else if l.finishing then (l.countDrop.advance, [])
    else
      match l.next with
      | none => (l, [])
      | some _ =>
        let (l1, rep) := l.unansweredDrop
        (l1.advance, rep)
  else (l, [])

/-- R125: a POLL exchange of WAITING takes `b`. -/
def Link.waitExchange (l : Link) (b : Byte) : Link :=
  if l.state = .waiting then
    let l := { l with out := some tokenPoll }
    if b = tokenWait then l
    else if l.retryDue then { l with state := .calling, retryDue := false, called := false, sent := 0 }
    else l.advance
  else l

/-! ## Directives and resets (R127 to R131) -/

/-- R127: RUN clears the two counters. -/
def Link.run (l : Link) : Link := { l with dropped := 0, retries := 0 }

/-- R130: the pending frame is discarded and counted. -/
def Link.discardNext (l : Link) : Link :=
  match l.next with
  | none => l
  | some _ => { l.countDrop with next := none }

/-- R130: the move into STOPPING, and R148: the auditorium becoming DARK. The pending frame goes; the frame
in flight is finished. -/
def Link.finishUp (l : Link) : Link :=
  let l := l.discardNext
  match l.state with
  | .idle => l
  | .calling => if l.called then { l with finishing := true } else l.countDrop.advance
  | .sending => { l with finishing := true }
  | .awaitingVerdict => { l with finishing := true }
  | .waiting => if l.retryDue then l.countDrop.advance else l.advance

/-- R131, column "Part start". -/
def Link.partStart (l : Link) : Link :=
  { l with
    state := .idle, down := false, frame := none, next := none, retry := false, retryDue := false
    unanswered := 0, called := false, sent := 0, shutDue := false, finishing := false }

/-- R131, column "DARK becomes HALTED": the latched settings of a link that is not past a CALL (log entry 19). -/
def Link.becomeHalted (l : Link) (k : Aud) : Link :=
  if l.state = .idle then { l with address := BitVec.ofNat 6 k.val, checkOn := true } else l

end Sys2Proof.Machine
end

