-- ==== Sys2Proof/Machine/Sequencer.lean ====
section
/-! DEFINITION. The Cue Sequencer's ordinary walk (03_cue_lists_and_the_sequencer.md): the staging window, the
reads of entries and texts, the active sets, clear orders, HALT, RUN and the fault. Every function is of one
sequencer alone. What it sends and asks for is in its answer, in order. -/

namespace Sys2Proof.Machine

/-- What a sequencer sends, in order: requests and notices to the Air Builder, reports, and the reads it
issues, each with the seek generation of its issue. -/
inductive SeqOut where
  | start (channel : Channel) (cue : CueId) (reentered textHeld : Bool)
  | remove (channel : Channel) (cue : CueId) (cause : Removal)
  | clear (channel : Channel)
  | textReady (cue : CueId)
  | report (r : Report)
  | readEntry (gen index : Nat)
  | readScan (gen index : Nat)
  | readLookback (gen index : Nat)
  | readText (gen : Nat) (cue : CueId) (offset length : Nat)
  deriving DecidableEq, Repr

/-- What a sequencer sees of the blocks around it: the caption mask, whether CUES is bound and under which
epoch, and the PAYLOAD binding's selector and byte limit. -/
structure SeqEnv where
  mask : BitVec 4
  cuesBound : Bool
  epoch : Byte
  payload : Option (Byte × Word)
  deriving DecidableEq, Repr

/-- Byte offset of entry `i` within the cue list region (R36). -/
def entryOffset (i : Nat) : Nat := 32 + 32 * i

/-- The caption channel of an entry that is not bad (R38). -/
def CueEntry.channelOf (e : CueEntry) : Channel := Fin.ofNat 4 e.channel.toNat

/-- R38, first three conditions. -/
def CueEntry.isBad (e : CueEntry) : Bool :=
  !(e.kind == 1 || e.kind == 2) || 3 < e.channel.toNat || e.finish.toNat ≤ e.start.toNat

/-- The text length L (R45). -/
def CueEntry.textLength (e : CueEntry) : Nat := min e.payloadLength.toNat Config.textLimit

/-- The payload is cut to 192 bytes (R45). -/
def CueEntry.isTruncated (e : CueEntry) : Bool := Config.textLimit < e.payloadLength.toNat

/-- R45: the L bytes lie within the PAYLOAD binding's byte limit, the sum taken without wrap. -/
def CueEntry.payloadFits (e : CueEntry) (limit : Word) : Bool :=
  e.payloadOffset.toNat + e.textLength - 1 ≤ limit.toNat

/-- Empty active sets. -/
def noActive : Vector (List ActiveCue) 4 := Vector.replicate 4 []

/-! ## Emptying (R41, R42, R59, R64) -/

/-- The removal and CLEAR requests of an emptied screen: each channel in order, its cues oldest first, then a
CLEAR where the channel is enabled (R59). -/
def screenRequests (mask : BitVec 4) (active : Vector (List ActiveCue) 4) : List SeqOut :=
  channelList.flatMap fun c =>
    (active[c].map fun a => SeqOut.remove c a.cue .screenClear)
      ++ (if captionEnabled mask c then [.clear c] else [])

/-- Empty the staging window and change the seek generation (R42); any seek context goes with it. -/
def Sequencer.dropReads (q : Sequencer) : Sequencer :=
  { q with window := [], seekGen := q.seekGen + 1, seek := none }

/-- The sequencer is following the clock or seeking. -/
def SeqState.isFollowing : SeqState → Bool
  | .seeking => true
  | .walking => true
  | .idle => false
  | .faulted => false

/-- R59: a clear order. -/
def Sequencer.clearOrder (q : Sequencer) (env : SeqEnv) : Sequencer × List SeqOut :=
  if q.state.isFollowing then
    ({ q.dropReads with active := noActive, state := .idle }, screenRequests env.mask q.active)
  else (q, [])

/-- R60: the values of HALT. -/
def Sequencer.rested (q : Sequencer) : Sequencer :=
  { q.dropReads with active := noActive, state := .idle, cursor := 0, listEnd := false }

/-- R60: HALT. -/
def Sequencer.halt (q : Sequencer) (env : SeqEnv) : Sequencer × List SeqOut :=
  (q.rested, if q.state.isFollowing then screenRequests env.mask q.active else [])

/-- R48: an entry read failed; `index` is the entry. -/
def Sequencer.faultAt (q : Sequencer) (env : SeqEnv) (index : Nat) : Sequencer × List SeqOut :=
  ({ q.dropReads with active := noActive, state := .faulted },
    screenRequests env.mask q.active ++ [.report (.sequencerFault (entryOffset index))])

/-- R60: RUN. -/
def Sequencer.run (q : Sequencer) : Sequencer :=
  { q.rested with staleCues := 0, crowded := 0, truncated := 0, badCues := 0 }

/-- R62, column "Part start, part stop". -/
def Sequencer.partChange (q : Sequencer) : Sequencer := { q.rested with listCount := 0 }

/-- R62, column "BIND of CUES", but for the list count, which the header read latches (R137). -/
def Sequencer.newList (q : Sequencer) : Sequencer := q.rested

/-- R36: the list count of a header count under a byte limit. -/
def listCountOf (header limit : Word) : Nat :=
  min (min header.toNat ((limit.toNat + 1 - 32) / 32)) 65535

/-! ## Entry reads and text reads (R44 to R47) -/

/-- R43: a slot whose read has just been issued. -/
def newSlot (index : Nat) : Slot :=
  { index := index, state := .reading, retracted := false, bad := false, entry := none, text := none }

/-- The slot of index `i` whose entry read is in flight. -/
def Slot.awaits (i : Nat) (x : Slot) : Bool := x.index == i && x.state == .reading

/-- What a classification leaves: the slot, the truncated counts to add, what is sent. -/
structure Classified where
  slot : Slot
  truncated : Nat
  outs : List SeqOut
  deriving DecidableEq, Repr

/-- R45: a CAPTION entry `e` in slot `x` meets the payload check. -/
def classifyCaption (env : SeqEnv) (gen : Nat) (x : Slot) (e : CueEntry) : Classified :=
  let cut := if e.isTruncated then 1 else 0
  if e.textLength = 0 then
    { slot := { x with state := .loaded, text := some [] }, truncated := cut, outs := [] }
  else
    match env.payload with
    | none => { slot := { x with state := .ready, bad := true }, truncated := cut, outs := [] }
    | some (selector, limit) =>
      if e.payloadFits limit then
        { slot := { x with state := .fetching }, truncated := cut
          outs := [.readText gen { epoch := env.epoch, index := x.index } e.payloadOffset.toNat e.textLength] }
      else
        { slot := { x with state := .ready, bad := true }, truncated := cut
          outs := [.report (.regionFault .payload selector .limit e.payloadOffset.toNat)] }

/-- R44: the classification of an entry just read. -/
def classify (env : SeqEnv) (gen : Nat) (slot : Slot) (e : CueEntry) : Classified :=
  let x := { slot with entry := some e }
  if slot.retracted || e.retracted then
    { slot := { x with state := .ready, retracted := true }, truncated := 0, outs := [] }
  else if e.isBad then { slot := { x with state := .ready, bad := true }, truncated := 0, outs := [] }
  else if !captionEnabled env.mask e.channelOf || e.kind == 2 then
    { slot := { x with state := .ready }, truncated := 0, outs := [] }
  else classifyCaption env gen x e

/-- R44: an entry read of the current generation completes. -/
def Sequencer.entryDone (q : Sequencer) (env : SeqEnv) (index : Nat) (e : CueEntry) : Sequencer × List SeqOut :=
  match q.window.find? (Slot.awaits index) with
  | none => (q, [])
  | some x =>
    let c := classify env q.seekGen x e
    ({ q with
        window := q.window.map fun y => if y.awaits index then c.slot else y
        truncated := q.truncated + BitVec.ofNat 32 c.truncated }, c.outs)

/-- The slot of cue `cue` whose text read is in flight, under the current CUES epoch. -/
def Slot.fetches (env : SeqEnv) (cue : CueId) (x : Slot) : Bool :=
  x.index == cue.index && x.state == .fetching && cue.epoch == env.epoch

/-- The channel on which `cue` is active. -/
def channelOfCue (active : Vector (List ActiveCue) 4) (cue : CueId) : Option Channel :=
  channelList.find? fun c => active[c].any fun a => a.cue == cue

/-- Change the active cue records of `cue`. -/
def mapActive (active : Vector (List ActiveCue) 4) (f : ActiveCue → ActiveCue) : Vector (List ActiveCue) 4 :=
  active.map fun l => l.map f

/-- Remove `cue` from channel `c`'s active set. -/
def removeActive (active : Vector (List ActiveCue) 4) (c : Channel) (cue : CueId) :
    Vector (List ActiveCue) 4 :=
  active.set c (active[c].filter fun a => !(a.cue == cue))

/-- R46: a text read of the current generation completes with the bytes `text`. -/
def Sequencer.textDone (q : Sequencer) (env : SeqEnv) (cue : CueId) (text : List Byte) :
    Sequencer × List SeqOut :=
  if q.window.any (Slot.fetches env cue) then
    ({ q with window := q.window.map fun x =>
        if x.fetches env cue then { x with state := .loaded, text := some text } else x }, [])
  else
    match channelOfCue q.active cue with
    | none => (q, [])
    | some _ =>
      ({ q with active := mapActive q.active fun a => if a.cue = cue then { a with text := some text } else a },
        [.textReady cue])

/-- R47: a text read of the current generation ends in a memory error. -/
def Sequencer.textFailed (q : Sequencer) (env : SeqEnv) (cue : CueId) : Sequencer × List SeqOut :=
  if q.window.any (Slot.fetches env cue) then
    ({ q with window := q.window.map fun x =>
        if x.fetches env cue then { x with state := .ready, bad := true, text := none } else x }, [])
  else
    match channelOfCue q.active cue with
    | none => (q, [])
    | some c =>
      ({ q with active := removeActive q.active c cue, badCues := q.badCues + 1 }, [.remove c cue .bad])

/-! ## The walk (R53 to R58) -/

/-- R53: expiry at show time `s`. -/
def Sequencer.expire (q : Sequencer) (s : Word) : Sequencer × List SeqOut :=
  ({ q with active := q.active.map fun l => l.filter fun a => s.toNat < a.finish.toNat },
    channelList.flatMap fun c =>
      (q.active[c].filter fun a => a.finish.toNat ≤ s.toNat).map fun a => SeqOut.remove c a.cue .expired)

/-- R55: a CLEAR cue of channel `c` is issued. -/
def Sequencer.issueClear (q : Sequencer) (c : Channel) : Sequencer × List SeqOut :=
  ({ q with active := q.active.set c [] },
    (q.active[c].map fun a => SeqOut.remove c a.cue .clearCue) ++ [.clear c])

/-- R56: the active cue record of a CAPTION issued from slot `x`. -/
def activeOf (env : SeqEnv) (x : Slot) (e : CueEntry) : ActiveCue :=
  { cue := { epoch := env.epoch, index := x.index }, start := e.start, finish := e.finish, row := e.row
    style := e.style, text := x.text, reentered := false }

/-- R56: a CAPTION cue is issued; a full set first loses its oldest cue. -/
def Sequencer.issueCaption (q : Sequencer) (env : SeqEnv) (x : Slot) (e : CueEntry) :
    Sequencer × List SeqOut :=
  let c := e.channelOf
  let a := activeOf env x e
  let begin := SeqOut.start c a.cue false (x.state == .loaded)
  match q.active[c] with
  | oldest :: rest =>
    if 3 ≤ rest.length then
      ({ q with active := q.active.set c (rest ++ [a]), crowded := q.crowded + 1 },
        [.remove c oldest.cue .displaced, begin])
    else ({ q with active := q.active.set c (oldest :: rest ++ [a]) }, [begin])
  | [] => ({ q with active := q.active.set c [a] }, [begin])

/-- R54: the entry taken from slot `x` meets the first case that fits. -/
def Sequencer.issueSlot (q : Sequencer) (env : SeqEnv) (s : Word) (x : Slot) (e : CueEntry) :
    Sequencer × List SeqOut :=
  if x.retracted then (q, [])
  else if x.bad then ({ q with badCues := q.badCues + 1 }, [])
  else if !captionEnabled env.mask e.channelOf then (q, [])
  else if e.finish.toNat ≤ s.toNat then ({ q with staleCues := q.staleCues + 1 }, [])
  else if e.kind == 2 then q.issueClear e.channelOf
  else q.issueCaption env x e

/-- The head slot may be taken at show time `s`: its entry is held and its start has come (R54). -/
def Slot.due (s : Word) (x : Slot) : Option CueEntry :=
  if x.state = .reading then none
  else x.entry.filter fun e => e.start.toNat ≤ s.toNat

/-- R54, R57: issue takes entries from the head of the window, here the list; what is left is the window. -/
def Sequencer.issue (env : SeqEnv) (s : Word) : List Slot → Sequencer → Sequencer × List SeqOut
  | [], q => ({ q with window := [] }, [])
  | x :: rest, q =>
    match if q.cursor < q.listCount then x.due s else none with
    | none => ({ q with window := x :: rest }, [])
    | some e =>
      let one := Sequencer.issueSlot { q with cursor := q.cursor + 1 } env s x e
      let more := Sequencer.issue env s rest one.1
      (more.1, one.2 ++ more.2)

/-- R58: the list-end test. -/
def Sequencer.testEnd (q : Sequencer) : Sequencer × List SeqOut :=
  if q.cursor = q.listCount ∧ !q.listEnd then ({ q with listEnd := true }, [.report (.listEnd q.cursor)])
  else (q, [])

/-- R43: the indices the refill reads. -/
def Sequencer.missing (q : Sequencer) : List Nat :=
  (List.range (min (q.cursor + 16) q.listCount)).drop (q.cursor + q.window.length)

/-- R43: the refill. -/
def Sequencer.refill (q : Sequencer) : Sequencer × List SeqOut :=
  ({ q with window := q.window ++ q.missing.map newSlot }, q.missing.map fun i => SeqOut.readEntry q.seekGen i)

/-- R53 to R58: the walk at show time `s`: expiry, issue, the list-end test, the refill. -/
def Sequencer.walk (q : Sequencer) (env : SeqEnv) (s : Word) : Sequencer × List SeqOut :=
  let expired := q.expire s
  let issued := Sequencer.issue env s expired.1.window expired.1
  let ended := issued.1.testEnd
  let filled := ended.1.refill
  (filled.1, expired.2 ++ issued.2 ++ ended.2 ++ filled.2)

end Sys2Proof.Machine
end

