-- ==== Sys2Proof/Machine/Seeking.lean ====
section
/-! DEFINITION. Seeking and re-entry (04_seeking_and_re_entry.md): the seat, the scan, the lookback, the
choice of candidates and their placing, and the sequencer's work at a show-time update. Every function is of
one sequencer alone. -/

namespace Sys2Proof.Machine

/-! ## The seat (R64) -/

/-- R64: the fresh seek context of a seat at `target`. -/
def freshSeek (target : Word) : Seek :=
  { phase := .scan, target := target, direction := .undecided, batch := [], lookback := none, stopped := []
    candidates := [] }

/-- R64: the window is dropped, the list-end mark cleared and a fresh seek begun; the cursor is kept. -/
def Sequencer.beginSeek (q : Sequencer) (target : Word) : Sequencer :=
  { q.dropReads with seek := some (freshSeek target), state := .seeking, listEnd := false, active := noActive }

/-- R64: a seat signal. -/
def Sequencer.seat (q : Sequencer) (env : SeqEnv) (target : Word) : Sequencer × List SeqOut :=
  match q.state with
  | .walking => (q.beginSeek target, screenRequests env.mask q.active)
  | .idle => if env.cuesBound then (q.beginSeek target, []) else (q, [])
  | .seeking => (q.beginSeek target, [])
  | .faulted => (q, [])

/-! ## The scan (R65 to R68) -/

def seekItem (i : Nat) : SeekItem := { index := i, entry := none }

/-- R68: indices a FORWARD batch of `n` reads asks for. -/
def Sequencer.forwardRun (q : Sequencer) (n : Nat) : List Nat :=
  (List.range (min (q.cursor + n) q.listCount)).drop q.cursor

/-- R68: indices a BACKWARD batch of `n` reads asks for, in scan order. -/
def Sequencer.backwardRun (q : Sequencer) (n : Nat) : List Nat :=
  ((List.range q.cursor).drop (q.cursor - n)).reverse

/-- Issue scan reads for `run`, in scan order. -/
def Sequencer.issueScan (q : Sequencer) (sk : Seek) (run : List Nat) : Sequencer × List SeqOut :=
  ({ q with seek := some { sk with batch := run.map seekItem } }, run.map fun i => SeqOut.readScan q.seekGen i)

/-- R65: the scan ends; what it has not examined is dropped. -/
def Sequencer.endScan (q : Sequencer) (sk : Seek) : Sequencer × List SeqOut :=
  ({ q with seek := some { sk with phase := .reentry, batch := [] } }, [])

/-- R67, R68: the next FORWARD batch of at most `n` reads, or the end of the scan at the list count. -/
def Sequencer.nextForward (q : Sequencer) (sk : Seek) (n : Nat) : Sequencer × List SeqOut :=
  if q.cursor = q.listCount then q.endScan { sk with direction := .forward }
  else q.issueScan { sk with direction := .forward } (q.forwardRun n)

/-- R67, R68: the next BACKWARD batch of at most `n` reads, or the end of the scan at 0. -/
def Sequencer.nextBackward (q : Sequencer) (sk : Seek) (n : Nat) : Sequencer × List SeqOut :=
  if q.cursor = 0 then q.endScan { sk with direction := .backward }
  else q.issueScan { sk with direction := .backward } (q.backwardRun n)

/-- R66: the probe's examination chooses the direction and issues the rest of the first batch. -/
def Sequencer.examineProbe (q : Sequencer) (sk : Seek) (e : CueEntry) : Sequencer × List SeqOut :=
  if e.start.toNat > sk.target.toNat then Sequencer.nextBackward { q with cursor := q.cursor - 1 } sk 255
  else q.nextForward sk 255

/-- R65, R67: examine the held entries in FORWARD order; the list is the batch. -/
def Sequencer.examineForward (sk : Seek) : List SeekItem → Sequencer → Sequencer × List SeqOut
  | [], q => ({ q with seek := some { sk with batch := [] } }, [])
  | x :: rest, q =>
    match x.entry with
    | none => ({ q with seek := some { sk with batch := x :: rest } }, [])
    | some e =>
      if e.start.toNat ≤ sk.target.toNat then
        let q1 := { q with cursor := q.cursor + 1 }
        if q1.cursor = q1.listCount then q1.endScan sk else Sequencer.examineForward sk rest q1
      else q.endScan sk

/-- R65, R67: examine the held entries in BACKWARD order; the list is the batch. -/
def Sequencer.examineBackward (sk : Seek) : List SeekItem → Sequencer → Sequencer × List SeqOut
  | [], q => ({ q with seek := some { sk with batch := [] } }, [])
  | x :: rest, q =>
    match x.entry with
    | none => ({ q with seek := some { sk with batch := x :: rest } }, [])
    | some e =>
      if e.start.toNat > sk.target.toNat then
        let q1 := { q with cursor := q.cursor - 1 }
        if q1.cursor = 0 then q1.endScan sk else Sequencer.examineBackward sk rest q1
      else q.endScan sk

/-- R65 to R67: examine what the batch holds. -/
def Sequencer.examineScan (q : Sequencer) (sk : Seek) : Sequencer × List SeqOut :=
  match sk.direction with
  | .forward => Sequencer.examineForward sk sk.batch q
  | .backward => Sequencer.examineBackward sk sk.batch q
  | .undecided =>
    match sk.batch.head?.bind SeekItem.entry with
    | some e => q.examineProbe sk e
    | none => ({ q with seek := some sk }, [])

/-- The items with the read of `index` held. -/
def holdItem (index : Nat) (e : CueEntry) (items : List SeekItem) : List SeekItem :=
  items.map fun x => if x.index = index ∧ x.entry = none then { x with entry := some e } else x

/-- R65: a scan read of the current generation completes; out of the phase SCAN it is discarded. -/
def Sequencer.scanDone (q : Sequencer) (index : Nat) (e : CueEntry) : Sequencer × List SeqOut :=
  match q.seek with
  | none => (q, [])
  | some sk =>
    if sk.phase = .scan then q.examineScan { sk with batch := holdItem index e sk.batch } else (q, [])

/-- R65: an error of a scan read faults the sequencer only in the phase SCAN. -/
def Sequencer.scanFailed (q : Sequencer) (env : SeqEnv) (index : Nat) : Sequencer × List SeqOut :=
  match q.seek with
  | none => (q, [])
  | some sk => if sk.phase = .scan then q.faultAt env index else (q, [])

/-- R68: the scan's part of a show-time update. -/
def Sequencer.scanUpdate (q : Sequencer) (sk : Seek) : Sequencer × List SeqOut :=
  if sk.batch.isEmpty then
    match sk.direction with
    | .forward => q.nextForward sk 256
    | .backward => q.nextBackward sk 256
    | .undecided =>
      if q.cursor = 0 then q.nextForward sk 256 else q.issueScan sk [q.cursor - 1]
  else (q, [])

/-! ## Re-entry (R69 to R71) -/

/-- The candidate of a CAPTION entry (R63). -/
def candidateOf (index : Nat) (e : CueEntry) : Candidate :=
  { index := index, channel := e.channelOf, start := e.start, finish := e.finish, row := e.row
    style := e.style, payloadOffset := e.payloadOffset, textLength := e.textLength
    truncated := e.isTruncated }

/-- `a` comes before `b`: an older start, or the same start and a lower index (R70, R71). -/
def Candidate.before (a b : Candidate) : Bool :=
  a.start.toNat < b.start.toNat || (a.start.toNat == b.start.toNat && a.index < b.index)

/-- R71: put a candidate in its place, oldest start first. -/
def insertCandidate (c : Candidate) : List Candidate → List Candidate
  | [] => [c]
  | x :: rest => if c.before x then c :: x :: rest else x :: insertCandidate c rest

/-- The candidates of a channel, oldest start first. -/
def channelCandidates (c : Channel) (l : List Candidate) : List Candidate :=
  (l.filter fun x => x.channel == c).foldr insertCandidate []

/-- R70: the newcomer is not among the latest four of its channel. -/
def tooOld (c : Candidate) (l : List Candidate) : Bool :=
  match channelCandidates c.channel l with
  | smallest :: rest => 3 ≤ rest.length && c.start.toNat ≤ smallest.start.toNat
  | [] => false

/-- R70: the newcomer joins; a channel that holds four first loses the one with the smallest start, of these
the lowest index. -/
def joinCandidates (c : Candidate) (l : List Candidate) : List Candidate :=
  match channelCandidates c.channel l with
  | smallest :: rest => if 3 ≤ rest.length then l.filter (fun x => !(x == smallest)) ++ [c] else l ++ [c]
  | [] => l ++ [c]

/-- The text of an entry lies within the PAYLOAD binding (R45, R70). An empty text needs no bytes. -/
def payloadPasses (env : SeqEnv) (e : CueEntry) : Bool :=
  e.textLength == 0 ||
    match env.payload with
    | none => false
    | some (_, limit) => e.payloadFits limit

/-- R70: the REGION_FAULT of a caption that fails the payload check. -/
def payloadFault (env : SeqEnv) (e : CueEntry) : List SeqOut :=
  match env.payload with
  | none => []
  | some (selector, _) => [.report (.regionFault .payload selector .limit e.payloadOffset.toNat)]

/-- R70: the examination of one lookback entry, the first case that applies. -/
def examineLookback (env : SeqEnv) (sk : Seek) (index : Nat) (e : CueEntry) : Seek × List SeqOut :=
  if e.retracted || e.isBad || !captionEnabled env.mask e.channelOf || sk.stopped.contains e.channelOf then (sk, [])
  else if e.kind == 2 then
    if e.start.toNat ≤ sk.target.toNat then ({ sk with stopped := e.channelOf :: sk.stopped }, []) else (sk, [])
  else if !(e.start.toNat ≤ sk.target.toNat && sk.target.toNat < e.finish.toNat) then (sk, [])
  else if tooOld (candidateOf index e) sk.candidates then (sk, [])
  else if payloadPasses env e then
    ({ sk with candidates := joinCandidates (candidateOf index e) sk.candidates }, [])
  else (sk, payloadFault env e)

/-- The active cue record of a candidate (R71); an empty text is held at once. -/
def candidateCue (env : SeqEnv) (c : Candidate) : ActiveCue :=
  { cue := { epoch := env.epoch, index := c.index }, start := c.start, finish := c.finish, row := c.row
    style := c.style, text := if c.textLength = 0 then some [] else none, reentered := true }

/-- R71, step 1: place the candidates, in order, at the newest end of their sets. -/
def placeCandidates (env : SeqEnv) (l : List Candidate) (active : Vector (List ActiveCue) 4) :
    Vector (List ActiveCue) 4 :=
  l.foldl (fun act c => act.set c.channel (act[c.channel] ++ [candidateCue env c])) active

/-- R71, step 2: the START request of a candidate and its text read. -/
def candidateOuts (env : SeqEnv) (gen : Nat) (c : Candidate) : List SeqOut :=
  let cue : CueId := { epoch := env.epoch, index := c.index }
  .start c.channel cue true (c.textLength == 0)
    :: (if c.textLength = 0 then [] else [.readText gen cue c.payloadOffset.toNat c.textLength])

/-- R71: re-entry completes. -/
def Sequencer.completeReentry (q : Sequencer) (env : SeqEnv) (sk : Seek) : Sequencer × List SeqOut :=
  let placed := sk.candidates.foldr insertCandidate []
  let q1 : Sequencer :=
    { q with
      active := placeCandidates env placed q.active
      truncated := q.truncated + BitVec.ofNat 32 (placed.countP fun c => c.truncated)
      seek := none, state := .walking }
  let filled := q1.refill
  (filled.1, placed.flatMap (candidateOuts env q.seekGen)
    ++ [.report (.seekDone q.cursor placed.length)] ++ filled.2)

/-- R69, R70: examine the held lookback entries in downward order; the list is the lookback. -/
def Sequencer.lookbackRun (q : Sequencer) (env : SeqEnv) : List SeekItem → Seek → Sequencer × List SeqOut
  | [], sk => q.completeReentry env { sk with lookback := some [] }
  | x :: rest, sk =>
    match x.entry with
    | none => ({ q with seek := some { sk with lookback := some (x :: rest) } }, [])
    | some e =>
      let one := examineLookback env sk x.index e
      let more := Sequencer.lookbackRun q env rest one.1
      (more.1, one.2 ++ more.2)

/-- R69: a lookback read of the current generation completes. -/
def Sequencer.lookbackDone (q : Sequencer) (env : SeqEnv) (index : Nat) (e : CueEntry) :
    Sequencer × List SeqOut :=
  match q.seek with
  | none => (q, [])
  | some sk =>
    match sk.phase, sk.lookback with
    | .reentry, some items => q.lookbackRun env (holdItem index e items) sk
    | .reentry, none => (q, [])
    | .scan, _ => (q, [])

/-- R69: an error of a lookback read of the current seek faults the sequencer. -/
def Sequencer.lookbackFailed (q : Sequencer) (env : SeqEnv) (index : Nat) : Sequencer × List SeqOut :=
  match q.seek with
  | none => (q, [])
  | some sk => if sk.phase = .reentry then q.faultAt env index else (q, [])

/-- R69: the lookback's part of a show-time update. With the cursor at 0 it is empty and re-entry completes. -/
def Sequencer.reentryUpdate (q : Sequencer) (env : SeqEnv) (sk : Seek) : Sequencer × List SeqOut :=
  match sk.lookback with
  | some _ => (q, [])
  | none =>
    let run := q.backwardRun 64
    if run.isEmpty then q.completeReentry env sk
    else
      ({ q with seek := some { sk with lookback := some (run.map seekItem) } },
        run.map fun i => SeqOut.readLookback q.seekGen i)

/-- R68, R69: the seek's step at a show-time update. A scan that ends at this update issues the lookback at
the same update. -/
def Sequencer.seekUpdate (q : Sequencer) (env : SeqEnv) : Sequencer × List SeqOut :=
  match q.seek with
  | none => (q, [])
  | some sk =>
    let scanned := if sk.phase = .scan then q.scanUpdate sk else (q, [])
    match scanned.1.seek with
    | none => scanned
    | some sk1 =>
      if sk1.phase = .reentry then
        let looked := scanned.1.reentryUpdate env sk1
        (looked.1, scanned.2 ++ looked.2)
      else scanned

/-- R40: a show-time update at show time `s`. -/
def Sequencer.update (q : Sequencer) (env : SeqEnv) (s : Word) : Sequencer × List SeqOut :=
  match q.state with
  | .walking => q.walk env s
  | .seeking => q.seekUpdate env
  | .idle => (q, [])
  | .faulted => (q, [])

end Sys2Proof.Machine
end

