-- ==== Sys2Proof/Machine/Ops.lean ====
section
/-! DEFINITION. The operations several commands share: the binding map and the issue of memory accesses (R135,
R140, R142), the append of a report (R187), what one block delivers to another, and the results of a batch
(R153, R154). -/

namespace Sys2Proof.Machine

/-! ## Updates of one block -/

def State.modReceiver (s : State) (k : Aud) (f : Receiver → Receiver) : State :=
  s.modAud k fun a => { a with receiver := f a.receiver }

def State.modClock (s : State) (k : Aud) (f : Clock → Clock) : State :=
  s.modAud k fun a => { a with clock := f a.clock }

def State.modSeq (s : State) (k : Aud) (f : Sequencer → Sequencer) : State :=
  s.modAud k fun a => { a with seq := f a.seq }

def State.modMixer (s : State) (k : Aud) (f : Mixer → Mixer) : State :=
  s.modAud k fun a => { a with mixer := f a.mixer }

def State.modBuilder (s : State) (k : Aud) (f : Builder → Builder) : State :=
  s.modAud k fun a => { a with builder := f a.builder }

def State.modLink (s : State) (k : Aud) (f : Link → Link) : State :=
  s.modAud k fun a => { a with link := f a.link }

def State.modUnit (s : State) (k : Aud) (f : DirectiveUnit → DirectiveUnit) : State :=
  s.modAud k fun a => { a with unit := f a.unit }

def State.modWriter (s : State) (k : Aud) (f : Writer → Writer) : State :=
  s.modAud k fun a => { a with writer := f a.writer }

/-! ## The binding map and the epoch counters (R135) -/

def Epochs.get (e : Epochs) : Role → Byte
  | .showRecord => e.showRecord
  | .cues => e.cues
  | .payload => e.payload
  | .narrationA => e.narrationA
  | .narrationB => e.narrationB
  | .bed => e.bed
  | .reports => e.reports

/-- The counter of a role rises by 1, from 255 to 0 (R135). -/
def Epochs.raise (e : Epochs) : Role → Epochs
  | .showRecord => { e with showRecord := e.showRecord + 1 }
  | .cues => { e with cues := e.cues + 1 }
  | .payload => { e with payload := e.payload + 1 }
  | .narrationA => { e with narrationA := e.narrationA + 1 }
  | .narrationB => { e with narrationB := e.narrationB + 1 }
  | .bed => { e with bed := e.bed + 1 }
  | .reports => { e with reports := e.reports + 1 }

/-- The map entry of an auditorium and role (R140). -/
def State.binding (s : State) (k : Aud) (role : Role) : Option Binding :=
  s.bindings.find? fun b => b.aud == k && b.role == role

/-- The auditorium holds the role. -/
def State.holdsRole (s : State) (k : Aud) (role : Role) : Bool := (s.binding k role).isSome

/-- The selector is in the map, under any auditorium and role (R136). -/
def State.selectorTaken (s : State) (selector : Byte) : Bool := s.bindings.any (·.selector == selector)

/-- The access was issued under the auditorium's current binding of its role (R141). A table access, of no
binding, is always current. -/
def State.isCurrent (s : State) (a : Access) : Bool :=
  match a.aud with
  | none => true
  | some k => (s.binding k a.role).any (·.epoch == a.epoch)

/-- Remove the map entries of one auditorium (R139). -/
def State.unbindAud (s : State) (k : Aud) : State :=
  { s with bindings := s.bindings.filter fun b => !(b.aud == k) }

/-- Remove the map entry of an auditorium and role (R138). -/
def State.unbindRole (s : State) (k : Aud) (role : Role) : State :=
  { s with bindings := s.bindings.filter fun b => !(b.aud == k && b.role == role) }

/-! ## Memory accesses (R140, R142) -/

/-- The access is a write: it carries data. -/
def Access.isWrite (a : Access) : Bool := !a.data.isEmpty

/-- Two accesses touch a byte in common (R142), addresses modulo 2^64. -/
def Access.shares (a b : Access) : Bool :=
  0 < a.length && 0 < b.length &&
    ((b.address - a.address).toNat < a.length || (a.address - b.address).toNat < b.length)

/-- R142: a write takes effect only after the accesses issued before it to a byte in common. While one of them is in
flight its turn has not come (log entry 36). -/
def State.mustWait (s : State) (a : Access) : Bool := s.inFlight.any fun b => b.tag < a.tag && b.shares a

/-- The command that ends the write `a` as the host signalled it. -/
def Access.endCommand (a : Access) (ok : Bool) : Instr :=
  match a.purpose with
  | .ackWrite => .ackWriteComplete a.tag ok
  | .reportWrite => .reportEntryWriteComplete a.tag ok
  | _ => .writeComplete a.tag ok

/-- The command that ends a write whose answer the House Port keeps, once its turn has come (R142; log entry 36). -/
def State.turnCome (s : State) (a : Access) : Option Instr :=
  if s.mustWait a then none else a.answer.map a.endCommand

/-- The bytes of write `w` that a read of `length` bytes at `address` must see (R142), addresses modulo 2^64: none of
a write known to have failed. -/
def Access.seenBy (w : Access) (address : Quad) (length : Nat) : List Forward :=
  if w.answer = some false then [] else
  (List.range w.data.length).filterMap fun j =>
    let i := (w.address + BitVec.ofNat 64 j - address).toNat
    if i < length then some { writer := w.tag, offset := i, value := byteAt w.data j } else none

/-- What a read issued now must see of the writes in flight, the oldest first (R142). -/
def State.forwardsFor (s : State) (address : Quad) (length : Nat) : List Forward :=
  s.inFlight.flatMap fun w => w.seenBy address length

/-- The bytes a completed read hands on: the host's, at most as many as were asked for, with the bytes of the
earlier writes laid over them in issue order (R142). -/
def Access.received (a : Access) (d : List Byte) : List Byte :=
  a.forwards.foldl (fun bytes f => bytes.set f.offset f.value) (padTo a.length d)

/-- Hand an access to the House Port under the next tag, issued at this house tick. -/
def State.issue (s : State) (a : Access) : State :=
  { s with
    inFlight := s.inFlight ++ [{ a with tag := s.nextTag, issued := s.houseTime }]
    nextTag := s.nextTag + 1 }

/-- What becomes of a binding access (R140): discarded, beyond the byte limit of a binding of `selector`, or
made under a tag. -/
inductive Launch where
  | discarded
  | beyond (selector : Byte)
  | made (tag : Nat)
  deriving DecidableEq, Repr

/-- A binding access through `b`. `data` is empty for a read. -/
def State.throughBinding (s : State) (b : Binding) (offset length : Nat) (data : List Byte)
    (purpose : Purpose) : State :=
  let address := b.base + BitVec.ofNat 64 offset
  s.issue
    { tag := 0, issued := 0, aud := some b.aud, role := b.role, selector := b.selector, epoch := b.epoch
      offset := offset, address := address, length := length, data := data
      forwards := if data.isEmpty then s.forwardsFor address length else []
      live := true, answer := none, purpose := purpose }

/-- R140: a binding access of auditorium `k` under `role`. -/
def State.launch (s : State) (k : Aud) (role : Role) (offset length : Nat) (data : List Byte)
    (purpose : Purpose) : State × Launch :=
  match s.binding k role with
  | none => (s, .discarded)
  | some b =>
    if b.limit.toNat < offset + length - 1 then (s, .beyond b.selector)
    else (s.throughBinding b offset length data purpose, .made s.nextTag)

/-- R140: a table access to `length` bytes at `within` of entry `selector`. A REGION_FAULT of it carries the
offset 16·selector (R144). -/
def State.tableAccess (s : State) (aud : Option Aud) (role : Role) (selector : Byte) (within length : Nat)
    (data : List Byte) (purpose : Purpose) : State :=
  let address := s.latchedBase + BitVec.ofNat 64 (16 * selector.toNat + within)
  s.issue
    { tag := 0, issued := 0, aud := aud, role := role, selector := selector, epoch := 0
      offset := 16 * selector.toNat, address := address, length := length, data := data
      forwards := if data.isEmpty then s.forwardsFor address length else []
      live := true, answer := none, purpose := purpose }

/-- The read of a whole descriptor (R140). -/
def State.readDescriptor (s : State) (aud : Option Aud) (role : Role) (selector : Byte)
    (purpose : Purpose) : State := s.tableAccess aud role selector 0 16 [] purpose

/-- The masked write of a descriptor's two binding bytes (R137, R138, R145). -/
def State.writeBindingBytes (s : State) (aud : Option Aud) (role : Role) (selector : Byte) (bytes : List Byte)
    (purpose : Purpose) : State := s.tableAccess aud role selector 14 2 bytes purpose

/-- Forget the access `tag`: it has ended. -/
def State.dropAccess (s : State) (tag : Nat) : State :=
  { s with inFlight := s.inFlight.filter fun a => !(a.tag == tag) }

/-- A write that ended in a memory error is seen by no read. R174 says that no later read sees a failed flag write; for
the other writes, and for the reads already in flight, it is the model's choice (log entry 7). -/
def State.withdraw (s : State) (tag : Nat) : State :=
  { s with inFlight := s.inFlight.map fun a =>
      { a with forwards := a.forwards.filter fun f => !(f.writer == tag) } }

/-- R142: the host's answer to the write `tag` is kept until its turn comes; one that failed is seen by no read
(log entry 7). -/
def State.keepAnswer (s : State) (tag : Nat) (ok : Bool) : State :=
  let s1 : State :=
    { s with inFlight := s.inFlight.map fun a => if a.tag = tag then { a with answer := some ok } else a }
  if ok then s1 else s1.withdraw tag

/-! ## Reports (R187 to R189) -/

/-- One more report missed (R187). -/
def State.missReport (s : State) (k : Aud) : State :=
  s.modWriter k fun w => { w with missed := w.missed + 1 }

/-- R187: the ring has room for one more report. -/
def Writer.room (w : Writer) : Bool := (w.writeCount - w.readCount).toNat < w.capacity

/-- R187: the offset of the next report's entry. -/
def Writer.offset (w : Writer) : Nat := w.writeCount.toNat % w.capacity * 32

/-- The append of a report (R187). -/
def State.appendReport (s : State) (k : Aud) (r : Report) : State :=
  let w := (s.aud k).writer
  match s.launch k .reports w.offset 32 (reportBytes w.writeCount s.houseTime k r) .reportWrite with
  | (s1, .made _) => s1.modWriter k fun w => { w with writeCount := w.writeCount + 1 }
  | (s1, .discarded) => s1.missReport k
  | (s1, .beyond _) => s1.missReport k

/-- A report is made for auditorium `k`. The Report Writer takes reports only while the part is RUNNING (R182,
R191). -/
def State.report (s : State) (k : Aud) (r : Report) : State :=
  if s.partState = .running then
    if (s.aud k).writer.bound && (s.aud k).writer.room then s.appendReport k r else s.missReport k
  else s

/-- Reports in the order made. -/
def State.reportAll (s : State) (k : Aud) (l : List Report) : State := l.foldl (fun s r => s.report k r) s

/-- R140: a binding access with its limit check reported; the tag where it was made. -/
def State.access (s : State) (k : Aud) (role : Role) (offset length : Nat) (data : List Byte)
    (purpose : Purpose) : State × Option Nat :=
  match s.launch k role offset length data purpose with
  | (s1, .made tag) => (s1, some tag)
  | (s1, .discarded) => (s1, none)
  | (s1, .beyond selector) => (s1.report k (.regionFault role selector .limit offset), none)

/-! ## What the blocks deliver to each other -/

/-- The Builder takes requests and notices of the Sequencer: not in CLOSING (R113), not in DARK, and only while
the part is RUNNING (R115). -/
def State.builderTakes (s : State) (k : Aud) : Bool :=
  s.partState == .running && ((s.aud k).unit.showState == .halted || (s.aud k).unit.showState == .running)

/-- The Builder takes signals of the clock: not in DARK, and only while the part is RUNNING (R115). -/
def State.builderHears (s : State) (k : Aud) : Bool :=
  s.partState == .running && !((s.aud k).unit.showState == .dark)

/-- Change the Builder where it takes the Sequencer's requests. -/
def State.askBuilder (s : State) (k : Aud) (f : Builder → Builder) : State :=
  if s.builderTakes k then s.modBuilder k f else s

/-- What the Sequencer sees of the blocks around it. -/
def State.seqEnv (s : State) (k : Aud) : SeqEnv :=
  { mask := (s.aud k).unit.channels.captions
    cuesBound := s.holdsRole k .cues
    epoch := ((s.binding k .cues).map (·.epoch)).getD 0
    payload := (s.binding k .payload).map fun b => (b.selector, b.limit) }

/-- Carry out one thing a Sequencer sends. -/
def State.seqSend (s : State) (k : Aud) : SeqOut → State
  | .start c cue reentered held =>
    s.askBuilder k fun b => b.startRequest (s.aud k).unit.channels.copies c cue reentered held
  | .remove c cue cause => s.askBuilder k fun b => b.removal (s.aud k).unit.channels.copies c cue cause
  | .clear c => s.askBuilder k fun b => b.clearRequest (s.aud k).unit.channels.copies c
  | .textReady cue => s.askBuilder k fun b => b.textReady cue
  | .report r => s.report k r
  | .readEntry gen i => (s.access k .cues (entryOffset i) 32 [] (.entryRead gen i)).1
  | .readScan gen i => (s.access k .cues (entryOffset i) 32 [] (.scanRead gen i)).1
  | .readLookback gen i => (s.access k .cues (entryOffset i) 32 [] (.lookbackRead gen i)).1
  | .readText gen cue offset length => (s.access k .payload offset length [] (.textRead gen cue)).1

/-- Carry out all a Sequencer sends, in its order (R52). -/
def State.seqSendAll (s : State) (k : Aud) (outs : List SeqOut) : State :=
  outs.foldl (fun s o => s.seqSend k o) s

/-- One step of the Sequencer of auditorium `k`, with all it sends. -/
def State.seqStep (s : State) (k : Aud) (f : SeqEnv → Sequencer → Sequencer × List SeqOut) : State :=
  let r := f (s.seqEnv k) (s.aud k).seq
  (s.modSeq k fun _ => r.1).seqSendAll k r.2

/-- R110: the Builder's own signal. -/
def State.signalBuilder (s : State) (k : Aud) : State :=
  if s.builderHears k then s.modBuilder k Builder.signal else s

/-- R23, R26: a seat signal or a clear order reaches Builder, Mixer and Sequencer (log entry 5). -/
def State.deliver (s : State) (k : Aud) (sig : Signal) : State :=
  let s1 := (s.signalBuilder k).modMixer k Mixer.markResync
  match sig with
  | .seat target => s1.seqStep k fun env q => q.seat env target
  | .clear => s1.seqStep k fun env q => q.clearOrder env

/-- Put a clock's answer in place: the clock, its reports in order, its signal. -/
def State.clockStep (s : State) (k : Aud) (a : ClockAnswer) : State :=
  let s1 := (s.modClock k fun _ => a.clock).reportAll k a.reports
  match a.signal with
  | none => s1
  | some sig => s1.deliver k sig

/-! ## The end of a stop (R184) -/

/-- R184: STOPPING ends when no access is in flight and every link is IDLE. -/
def State.settleStop (s : State) : State :=
  if s.partState = .stopping ∧ s.inFlight = [] ∧ s.auds.all (fun a => a.link.state == .idle) then
    { s with partState := .stopped }
  else s

/-- Put a link's answer in place: the link, its reports, and the end of a stop that waited for it. -/
def State.linkStep (s : State) (k : Aud) (l : Link) (reports : List Report) : State :=
  ((s.modLink k fun _ => l).reportAll k reports).settleStop

/-! ## Results of a batch (R153, R154) -/

/-- Offset of slot `n`'s result byte in the show record (R192). -/
def resultOffset (n : Nat) : Nat := 64 + 32 * n + 15

/-- A batch's access joins what its acknowledgement waits for. -/
def State.await (s : State) (k : Aud) (tag : Option Nat) : State :=
  s.modUnit k fun u => { u with batch := u.batch.map fun b => { b with outstanding := b.outstanding ++ tag.toList } }

/-- A write of the batch of auditorium `k` to its show record (R153). -/
def State.batchWrite (s : State) (k : Aud) (offset : Nat) (data : List Byte) : State :=
  let (s1, tag) := s.access k .showRecord offset data.length data .resultWrite
  s1.await k tag

/-- R153: result 0 into the NONE slot `n` and every slot after it, issued in slot order (log entry 38). -/
def State.writeUnprocessed (s : State) (k : Aud) (n : Nat) : State :=
  ((List.range 8).drop n).foldl (fun s i => s.batchWrite k (resultOffset i) [0]) s

/-- The kind byte of slot `n` of the batch is NONE, or there is no slot `n` (R153). -/
def Batch.endsAt (b : Batch) (n : Nat) : Bool := 8 ≤ n || byteAt (b.slots.getD n []) 0 == 0

/-- R154: the batch is complete; the acknowledgement generation is set and its write issued. -/
def State.acknowledge (s : State) (k : Aud) (b : Batch) : State :=
  let s1 := s.modUnit k fun u =>
    { u with ackGeneration := b.generation, batch := some { b with phase := .acking } }
  (s1.access k .showRecord 320 4 (leWord b.generation) .ackWrite).1

/-- R154: acknowledge a batch that has taken its last slot and waits for nothing. -/
def State.settleBatch (s : State) (k : Aud) : State :=
  match (s.aud k).unit.batch with
  | none => s
  | some b => if b.phase = .ending ∧ b.outstanding = [] then s.acknowledge k b else s

/-- R153: the batch comes to slot `n`: it is taken next, or the batch ends there. -/
def State.comeToSlot (s : State) (k : Aud) (n : Nat) : State :=
  match (s.aud k).unit.batch with
  | none => s
  | some b =>
    if b.endsAt n then
      ((s.modUnit k fun u => { u with batch := some { b with next := n, phase := .ending } }).writeUnprocessed
        k n).settleBatch k
    else s.modUnit k fun u => { u with batch := some { b with next := n, phase := .taking } }

/-- R153: the result of the slot being taken is decided: its conditions and its 16-byte reply are written and
the batch goes on. Where the same command issues other accesses too, their order is the model's (log entry 38). -/
def State.decide (s : State) (k : Aud) (conditions : Byte) (reply : List Byte) : State :=
  match (s.aud k).unit.batch with
  | none => s
  | some b => (s.batchWrite k (resultOffset b.next) (conditions :: padTo 16 reply)).comeToSlot k (b.next + 1)

/-- A write of the batch, or a piece of its memory work, has ended. -/
def State.batchDone (s : State) (k : Aud) (tag : Nat) : State :=
  (s.modUnit k fun u =>
    { u with batch := u.batch.map fun b => { b with outstanding := b.outstanding.filter (· != tag) } }).settleBatch k

/-- R152: the command of the slot the batch of auditorium `k` takes next, where one stands. -/
def State.ready (s : State) (k : Aud) : Option Instr :=
  if s.partState = .running ∧ (s.aud k).unit.showState ≠ .dark then
    match (s.aud k).unit.batch with
    | none => none
    | some b => if b.phase = .taking then slotCommand k (b.slots.getD b.next []) else none
  else none

/-- R151: compose a status snapshot and write it. -/
def State.snapshot (s : State) (k : Aud) : State :=
  (s.access k .showRecord 320 192 (snapshotBytes (s.aud k)) .snapshotWrite).1

end Sys2Proof.Machine
end

