-- ==== Sys2Proof/Machine/Receiver.lean ====
section
/-! DEFINITION. The Timecode Receiver (01_timecode_lines_and_position_reports.md): taking a byte, the byte
gap, validation and the conversion to a position report. Every function is of one receiver alone. -/

namespace Sys2Proof.Machine

/-- The sync byte (R2). -/
def syncByte : Byte := 0xA5#8

/-- The two BCD digits of a field, tens in bits 7 to 4 (R5); none where a digit is above 9. -/
def bcd (b : Byte) : Option Nat :=
  let tens := b.toNat / 16
  let units := b.toNat % 16
  if tens ≤ 9 ∧ units ≤ 9 then some (tens * 10 + units) else none

/-- Edit rate of a rate code (R7); none for a code that is not 0 to 5. -/
def editRate (code : Byte) : Option Nat :=
  match code.toNat with
  | 0 => some 24
  | 1 => some 25
  | 2 => some 30
  | 3 => some 48
  | 4 => some 50
  | 5 => some 60
  | _ => none

/-- Show ticks per edit unit (R7): edit rate times ticks per unit is 48,000. -/
def ticksPerUnit (rate : Nat) : Nat := 48000 / rate

/-- The server state a message's state byte names (R5). -/
def serverState (b : Byte) : Option ServerState :=
  match b.toNat with
  | 1 => some .play
  | 2 => some .pause
  | 3 => some .stop
  | _ => none

/-- The nine bytes after the sync byte add up to 0 modulo 256 (R5). -/
def checkBalances (m : List Byte) : Bool := ((m.drop 1).map BitVec.toNat).sum % 256 == 0

/-- The position of a message in show ticks before the trim (R7), where its rate and its four BCD fields
are in range (R5). -/
def messagePosition (m : List Byte) : Option Nat := do
  let rate ← editRate (byteAt m 2)
  let hours ← bcd (byteAt m 3)
  let minutes ← bcd (byteAt m 4)
  let seconds ← bcd (byteAt m 5)
  let frame ← bcd (byteAt m 6)
  if hours ≤ 23 ∧ minutes ≤ 59 ∧ seconds ≤ 59 ∧ frame < rate then
    some ((((hours * 60 + minutes) * 60 + seconds) * rate + frame) * ticksPerUnit rate)
  else none

/-- R5, R6: what a complete message says if it is valid, `last` the last accepted sequence number. -/
def validate (m : List Byte) (last : Option Byte) : Option (ServerState × Nat) :=
  if checkBalances m ∧ last ≠ some (byteAt m 8) then
    match serverState (byteAt m 1), messagePosition m with
    | some st, some ticks => some (st, ticks)
    | _, _ => none
  else none

/-- R7, R8: the show time P of a position with the trim in force; below 0 it is 0. -/
def trimmed (ticks : Nat) (trim : Int) : Word := BitVec.ofNat 32 ((ticks : Int) + trim).toNat

/-- Empty the buffer and hunt. -/
def Receiver.toHunting (r : Receiver) : Receiver :=
  { r with state := .hunting, buffer := [], firstTick := none, latestTick := none }

/-- R4: the partial message is abandoned and counted. -/
def Receiver.abandon (r : Receiver) : Receiver := { r.toHunting with badReports := r.badReports + 1 }

/-- R2: a byte in HUNTING at house time `h`. -/
def Receiver.hunt (r : Receiver) (h : Word) (b : Byte) : Receiver :=
  if b = syncByte then
    { r with state := .assembling, buffer := [b], firstTick := some h, latestTick := some h }
  else r

/-- R4: the gap since the latest byte has reached 97 ticks at house time `h`. -/
def Receiver.gapExpired (r : Receiver) (h : Word) : Bool :=
  match r.state, r.latestTick with
  | .assembling, some t => Config.gapTicks ≤ (h - t).toNat
  | _, _ => false

/-- R3, R5 to R9: the message `m` is complete; `trim` is the trim in force. -/
def Receiver.complete (r : Receiver) (m : List Byte) (trim : Int) : Receiver × Option PositionReport :=
  match validate m r.lastSequence with
  | some (st, ticks) =>
    ({ r.toHunting with lastSequence := some (byteAt m 8) },
      some { state := st, showTime := trimmed ticks trim, arrival := r.firstTick.getD 0 })
  | none => ({ r.toHunting with badReports := r.badReports + 1 }, none)

/-- R3: a byte in ASSEMBLING that is in time, at house time `h`. -/
def Receiver.append (r : Receiver) (h : Word) (b : Byte) (trim : Int) : Receiver × Option PositionReport :=
  let m := r.buffer ++ [b]
  if m.length ≥ 10 then r.complete m trim
  else ({ r with buffer := m, latestTick := some h }, none)

/-- R2 to R4: a byte arrives at house time `h`. A late byte abandons the message and is hunted. -/
def Receiver.take (r : Receiver) (h : Word) (b : Byte) (trim : Int) : Receiver × Option PositionReport :=
  match r.state with
  | .hunting => (r.hunt h b, none)
  | .assembling => if r.gapExpired h then (r.abandon.hunt h b, none) else r.append h b trim

/-- R1: the part leaves RUNNING; a partial message is dropped uncounted. -/
def Receiver.partStop (r : Receiver) : Receiver := r.toHunting

/-- R11, column "Part start". -/
def Receiver.partStart (r : Receiver) : Receiver := { r.toHunting with lastSequence := none }

/-- R10: RUN clears the bad-report count. -/
def Receiver.run (r : Receiver) : Receiver := { r with badReports := 0 }

end Sys2Proof.Machine
end

