-- ==== Sys2Proof/Machine/Region.lean ====
section
/-! DEFINITION. The Region Unit's judgement of descriptors and its bindings (R134 to R139), and the life of an
auditorium and of the part: becoming HALTED, becoming DARK, start, stop and reset (R145, R147, R148, R182 to
R186). -/

namespace Sys2Proof.Machine

/-! ## Fitness (R134) -/

/-- The kind code a role requires (R134). -/
def Role.kind : Role → Byte
  | .showRecord => 1
  | .cues => 2
  | .payload => 3
  | .narrationA => 4
  | .narrationB => 4
  | .bed => 4
  | .reports => 5

/-- The least byte limit of a role's kind (R134). -/
def Role.minLimit : Role → Nat
  | .showRecord => 511
  | .cues => 31
  | .payload => 0
  | .narrationA => 1023
  | .narrationB => 1023
  | .bed => 1023
  | .reports => 127

/-- R134: the first test that fails gives the cause; none where the descriptor is fit for the role. -/
def Descriptor.unfit (d : Descriptor) (role : Role) : Option Cause :=
  if !d.present then some .notPresent
  else if d.kind ≠ role.kind then some .wrongKind
  else if d.limit.toNat < role.minLimit then some .tooSmall
  else if d.base.toNat % 64 ≠ 0 then some .misaligned
  else none

/-! ## Making a binding (R137) -/

/-- R137, steps 1 and 2: the map entry and the epoch. -/
def State.addBinding (s : State) (k : Aud) (role : Role) (selector : Byte) (d : Descriptor) : State :=
  let epochs := (s.aud k).epochs.raise role
  { s.modAud k fun a => { a with epochs := epochs } with
    bindings := s.bindings ++
      [{ selector := selector, aud := k, role := role, epoch := epochs.get role, base := d.base
         limit := d.limit }] }

/-- R75: the capacity of an audio ring in blocks. -/
def ringCapacity (limit : Word) : Nat := min ((limit.toNat + 1) / 512) 65535

/-- R187: the capacity of a report ring in entries. -/
def reportCapacity (limit : Word) : Nat := (limit.toNat + 1) / 32

/-- R190: a fresh report ring. -/
def Writer.bindTo (w : Writer) (capacity : Nat) : Writer :=
  { w with bound := true, capacity := capacity, writeCount := 0 }

/-- R190: RELEASE of REPORTS. -/
def Writer.unbind (w : Writer) : Writer := { w with bound := false }

/-- R137, step 4, but for the cue list header: the block that serves the role prepares itself. -/
def State.prepareRole (s : State) (k : Aud) (role : Role) (limit : Word) : State :=
  match role with
  | .showRecord => s
  | .cues => s.modSeq k Sequencer.newList
  | .payload => s
  | .narrationA => s.modMixer k fun m => m.modRing .a fun r => r.bindTo (ringCapacity limit)
  | .narrationB => s.modMixer k fun m => m.modRing .b fun r => r.bindTo (ringCapacity limit)
  | .bed => s.modMixer k fun m => m.modRing .bed fun r => r.bindTo (ringCapacity limit)
  | .reports => s.modWriter k fun w => w.bindTo (reportCapacity limit)

/-- R137: the capacity in the reply of a BIND; a CUES bind's is its list count, known later. -/
def replyCapacity (role : Role) (limit : Word) : Word :=
  match role with
  | .showRecord => 0
  | .cues => 0
  | .payload => limit
  | .narrationA => BitVec.ofNat 32 (ringCapacity limit)
  | .narrationB => BitVec.ofNat 32 (ringCapacity limit)
  | .bed => BitVec.ofNat 32 (ringCapacity limit)
  | .reports => BitVec.ofNat 32 (reportCapacity limit)

/-- R138: the block that served a role is told of its release. -/
def State.retireRole (s : State) (k : Aud) (role : Role) : State :=
  match role with
  | .showRecord => s
  | .cues => s.modSeq k fun q => { q with listCount := 0 }
  | .payload => s
  | .narrationA => s.modMixer k fun m => m.modRing .a Ring.unbind
  | .narrationB => s.modMixer k fun m => m.modRing .b Ring.unbind
  | .bed => s.modMixer k fun m => m.modRing .bed Ring.unbind
  | .reports => s.modWriter k Writer.unbind

/-! ## Becoming HALTED and becoming DARK (R147, R148) -/

/-- R147, R166, and the columns "DARK becomes HALTED" of R35, R96, R131, R191. -/
def Auditorium.becomeHalted (a : Auditorium) (k : Aud) : Auditorium :=
  { a with
    clock := { a.clock with loop := .initial }
    mixer := a.mixer.becomeHalted
    link := a.link.becomeHalted k
    unit := { a.unit with
      showState := .halted, firstHead := false, batch := none, tag := .empty, channels := .initial k }
    writer := { a.writer with bound := false, writeCount := 0, missed := 0 } }

/-- R147: the auditorium's show becomes HALTED. -/
def State.becomeHalted (s : State) (k : Aud) : State := s.modAud k fun a => a.becomeHalted k

/-- R148: every block of an auditorium that becomes DARK. The show is DARK before the Sequencer sends its
requests, so the Builder ignores them (R115; log entry 6). -/
def Auditorium.becomeDark (a : Auditorium) : Auditorium :=
  { a with
    clock := a.clock.toIdle.1
    seq := { a.seq.rested with listCount := 0 }
    mixer := a.mixer.dark
    builder := a.builder.partStop
    link := a.link.finishUp
    unit := { a.unit with showState := .dark, firstHead := false, batch := none, tag := .empty }
    writer := a.writer.unbind }

/-- The access belongs to the batch of auditorium `k` as a show record access (R148). -/
def Access.ofBatch (k : Aud) (a : Access) : Bool :=
  a.aud == some k &&
    match a.purpose with
    | .slotRead => true
    | .resultWrite => true
    | .ackWrite => true
    | _ => false

/-- R148: the auditorium becomes DARK and HOUSE_FAULT is set. -/
def State.becomeDark (s : State) (k : Aud) : State :=
  let s1 : State := { s with inFlight := s.inFlight.map fun a => if a.ofBatch k then { a with live := false } else a }
  ((s1.unbindAud k).modAud k Auditorium.becomeDark).setHouseFault

/-! ## Start, stop, reset (R182 to R186) -/

/-- R182: the start's check of the table registers. -/
def tableFits (base : Quad) (count : Word) : Bool :=
  base.toNat % 64 == 0 && 25 ≤ count.toNat && count.toNat ≤ 256

/-- R182: the part-start values of every block. -/
def Auditorium.partStart (a : Auditorium) : Auditorium :=
  { a with
    receiver := a.receiver.partStart, clock := a.clock.partStart, seq := a.seq.partChange
    mixer := a.mixer.partChange, builder := a.builder.partStart, link := a.link.partStart
    writer := a.writer.unbind }

/-- R145: the reads of the start-up scan, one for every selector but 0 (log entry 15). -/
def State.readAllDescriptors (s : State) : State :=
  ((List.range s.latchedCount.toNat).drop 1).foldl
    (fun s i => s.readDescriptor none .showRecord (BitVec.ofNat 8 i) .startScanRead) s

/-- R182: a start request of a part that is STOPPED. -/
def State.startPart (s : State) : State :=
  let base : Quad := s.tableBaseHi ++ s.tableBaseLo
  if tableFits base s.tableCount then
    State.readAllDescriptors
      { s.mapAuds (fun _ a => a.partStart) with
        partState := .scanning, latchedBase := base, latchedCount := s.tableCount }
  else s.setHouseFault

/-- R184: every block at the move into STOPPING. The clear order of the clock finds the Builder deaf (R115) and
leaves the Sequencer as the part stop does (log entry 6). -/
def Auditorium.partStop (a : Auditorium) : Auditorium :=
  { a with
    receiver := a.receiver.partStop, clock := a.clock.toIdle.1, seq := a.seq.partChange
    mixer := a.mixer.partChange, builder := a.builder.partStop, link := a.link.finishUp
    unit := { a.unit with showState := .dark, firstHead := false, batch := none, tag := .empty }
    writer := a.writer.unbind }

/-- R184: the part leaves RUNNING for STOPPING. -/
def State.stopRunning (s : State) : State :=
  State.settleStop { s.mapAuds (fun _ a => a.partStop) with partState := .stopping, bindings := [] }

/-- R183: the scan ends without reaching RUNNING. -/
def State.endScan (s : State) : State := State.settleStop { s with partState := .stopping, bindings := [] }

/-- R183: a memory error of the scan. -/
def State.scanFailed (s : State) : State := s.setHouseFault.endScan

/-- A write of 1 to RUN (R178): it acts only in STOPPED. -/
def State.writeRunOne (s : State) : State := if s.partState = .stopped then s.startPart else s

/-- A write of 0 to RUN (R178): it acts only in SCANNING (R183) and RUNNING (R184). -/
def State.writeRunZero (s : State) : State :=
  match s.partState with
  | .running => s.stopRunning
  | .scanning => s.endScan
  | .stopped => s
  | .stopping => s

/-- R182: the scan is complete when none of its accesses is in flight; the bound auditoriums become HALTED
together and the part enters RUNNING. -/
def State.settleScan (s : State) : State :=
  if s.partState = .scanning ∧ s.inFlight = [] then
    { s.mapAuds (fun k a => if s.holdsRole k .showRecord then a.becomeHalted k else a) with partState := .running }
  else s

/-- R185: everything at its power-on value but the table registers. What is kept beside them is the model's own
(log entries 2, 8, 22). -/
def State.softReset (s : State) : State :=
  { State.reset with
    pending := s.pending, tableBaseLo := s.tableBaseLo, tableBaseHi := s.tableBaseHi, tableCount := s.tableCount
    nextTag := s.nextTag, messages := s.messages, readValue := s.readValue }

/-- A write to CONTROL (R178, R192): with RESET at 1 the soft reset alone, else NOTICE_EN and then RUN (log
entry 16). -/
def State.writeControl (s : State) (v : Word) : State :=
  if v.getLsbD 2 then s.softReset
  else if v.getLsbD 0 then (s.setNoticeEn (v.getLsbD 1)).writeRunOne
  else (s.setNoticeEn (v.getLsbD 1)).writeRunZero

/-- R177: a write to a register. -/
def State.writeRegister (s : State) (r : Register) (v : Word) : State :=
  match r with
  | .ident => s
  | .control => s.writeControl v
  | .status => s
  | .houseTime => s
  | .tableBaseLo => { s with tableBaseLo := v }
  | .tableBaseHi => { s with tableBaseHi := v }
  | .tableCount => { s with tableCount := v }

/-- A write at a byte offset of the register window (R192). Where no register lies nothing is written (log entry
35). -/
def State.writeWindow (s : State) (offset : Byte) (v : Word) : State :=
  match registerAt offset with
  | some r => s.writeRegister r v
  | none => s

/-- R179: a read of STATUS returns both latches and clears them. -/
def State.readStatus (s : State) : State :=
  { s with readValue := s.statusValue, notice := false, houseFault := false }

/-- R186. -/
def State.powerOn (s : State) : State := { State.reset with pending := s.pending }

end Sys2Proof.Machine
end

