-- ==== Sys2Proof/Machine/Schedule.lean ====
section
/-! DEFINITION. The events of the schedule: frame boundaries (R14 to R16, R40, R146, R150, R151), build points
(R79, R80, R98, R113), and the passing of a house tick (R13). -/

namespace Sys2Proof.Machine

/-! ## Frame boundary -/

/-- R146: a check read of a DARK auditorium's descriptor is in flight. -/
def State.checking (s : State) (k : Aud) : Bool :=
  s.inFlight.any fun a => a.aud == some k && a.purpose == .darkCheckRead

/-- The selector of auditorium `k`'s show record (R132). -/
def showSelector (k : Aud) : Byte := BitVec.ofNat 8 (k.val + 1)

/-- R146: the check of a DARK auditorium's descriptor. -/
def State.darkCheck (s : State) (k : Aud) : State :=
  if s.checking k then s else s.readDescriptor (some k) .showRecord (showSelector k) .darkCheckRead

/-- R150: the head read. -/
def State.readHead (s : State) (k : Aud) : State := (s.access k .showRecord 0 64 [] .headRead).1

/-- R151: the boundary's snapshot; none while the first head read is pending. -/
def State.boundarySnapshot (s : State) (k : Aud) : State :=
  if (s.aud k).unit.firstHead then s.snapshot k else s

/-- R16, R40: the show-time update, unless the clock is IDLE. -/
def State.showTimeUpdate (s : State) (k : Aud) : State :=
  if (s.aud k).clock.state = .idle then s
  else s.seqStep k fun env q => q.update env (s.aud k).clock.showTime

/-- What follows the clock's work at a boundary while the part is RUNNING. R61 leaves the order of snapshot and
walk open: `snapshotFirst` (log entry 4). R150 and R151 do not order the head read with the snapshot write, nor with
the reads of the Sequencer: that the head read is issued first is the model's choice (log entry 37). -/
def State.boundaryFollow (s : State) (k : Aud) (snapshotFirst : Bool) : State :=
  if (s.aud k).unit.showState = .dark then s.darkCheck k
  else if snapshotFirst then ((s.readHead k).boundarySnapshot k).showTimeUpdate k
  else ((s.readHead k).showTimeUpdate k).boundarySnapshot k

/-- The boundary of auditorium `k` (R14 to R16). The clock works in every part state. -/
def State.takeBoundary (s : State) (k : Aud) (snapshotFirst : Bool) : State :=
  let s1 := s.modAud k fun a => { a with boundaryDue := false }
  let s2 := s1.clockStep k ((s.aud k).clock.boundary s.houseTime)
  if s.partState = .running then s2.boundaryFollow k snapshotFirst else s2

/-- FRAME_BOUNDARY (R14). -/
def execFrameBoundary (k : Aud) (snapshotFirst : Bool) (s : State) : Host.Outcome State Fault Refusal :=
  .next (if (s.aud k).boundaryDue then s.takeBoundary k snapshotFirst else s)

/-! ## Build point -/

/-- R79: one step of a ring's prefetch. -/
def State.prefetchOne (s : State) (k : Aud) (name : RingName) : State :=
  let r := (s.aud k).mixer.ring name
  match r.wants with
  | none => s
  | some number =>
    match s.access k name.role (r.offsetOf number) 512 [] (.blockRead name r.fetchGen number) with
    | (s1, some _) => s1.modMixer k fun m => m.modRing name fun r => r.addReading number
    | (s1, none) => s1

/-- R79: the prefetch of one ring, at most 3 reads, for a ring used this frame. -/
def State.prefetch (s : State) (k : Aud) (name : RingName) (use : Bool) : State :=
  if use then ((s.prefetchOne k name).prefetchOne k name).prefetchOne k name else s

/-- R79: the prefetch of the rings the frame uses. R79 orders the reads within a ring and leaves the order among the
rings open; A, then B, then the bed is the model's choice (log entry 32). -/
def State.prefetchAll (s : State) (k : Aud) : State :=
  let m := (s.aud k).mixer
  let mask := (s.aud k).unit.channels.narration
  ((s.prefetch k .a (m.usesA mask)).prefetch k .b (m.usesB mask)).prefetch k .bed (m.usesBed mask)

/-- R112, R118: the Builder as the frame leaves it, and the frame handed to the link. -/
def State.handOn (s : State) (k : Aud) (b : Builder) (f : AirFrame) : State :=
  (s.modBuilder k fun _ => b).modLink k fun l => l.handoff f

/-- R98: an ordinary frame over the narration `sections`. -/
def State.buildOrdinary (s : State) (k : Aud) (sections : List AirSection) : State :=
  let a := s.aud k
  let r := a.builder.build k a.unit.channels a.seq.active a.clock.record sections
  s.handOn k r.1 r.2

/-- R113: a closing frame; the last one makes the show HALTED. -/
def State.buildClosing (s : State) (k : Aud) (sections : List AirSection) : State :=
  let a := s.aud k
  let r := a.builder.buildClosing k a.unit.channels a.clock.record sections
  let s1 := s.handOn k r.1 r.2
  if r.1.closing = 0 then s1.modUnit k fun u => { u with showState := .halted } else s1

/-- R80 to R90: the Mixer's part of a build point, with its reports; the sections are in the answer. -/
def State.mixFrame (s : State) (k : Aud) : State × List AirSection :=
  let r := (s.aud k).mixer.frame (s.aud k).unit.channels.narration (s.aud k).clock.record
  ((s.modMixer k fun _ => r.1).reportAll k r.2.2, r.2.1)

/-- The build point of auditorium `k` (R79, R80, R98, R113). -/
def State.takeBuildPoint (s : State) (k : Aud) : State :=
  let s1 := s.modAud k fun a => { a with buildDue := false }
  if s.partState = .running then
    match (s.aud k).unit.showState with
    | .running =>
      let mixed := s1.mixFrame k
      (mixed.1.prefetchAll k).buildOrdinary k mixed.2
    | .closing =>
      let mixed := s1.mixFrame k
      mixed.1.buildClosing k mixed.2
    | .halted => s1
    | .dark => s1
  else s1

/-- BUILD_POINT (R98). -/
def execBuildPoint (k : Aud) (s : State) : Host.Outcome State Fault Refusal :=
  .next (if (s.aud k).buildDue then s.takeBuildPoint k else s)

/-! ## A house tick (R13) and what falls due at it -/

/-- Frame phase of auditorium `k`'s boundaries (R13). -/
def boundaryPhase (k : Aud) : Nat := 20 * k.val

/-- Frame phase of auditorium `k`'s build points (R13). -/
def buildPhase (k : Aud) : Nat := (20 * k.val + 240) % 480

/-- R13, R177: one house tick passes. -/
def State.tick (s : State) : State :=
  let phase := s.framePhase + 1
  { s.mapAuds fun k a =>
      { a with
        boundaryDue := a.boundaryDue || phase.val == boundaryPhase k
        buildDue := a.buildDue || phase.val == buildPhase k } with
    houseTime := s.houseTime + 1, framePhase := phase }

/-- R143: the read has waited 192 house ticks. -/
def State.overdue (s : State) (a : Access) : Bool :=
  !a.isWrite && Config.giveUpTicks ≤ (s.houseTime - a.issued).toNat

/-- The auditoriums in order. -/
def audList : List Aud := List.ofFn id

/-- What the part does of itself at this tick (log entries 2, 3): writes whose turn has come, give-ups, gap expiries,
frame boundaries, build points, and the next directive of each batch. -/
def State.work (s : State) : List Instr :=
  s.inFlight.filterMap s.turnCome
    ++ (s.inFlight.filter s.overdue).map (fun a => Instr.readGiveUp a.tag)
    ++ (audList.filter fun k => (s.aud k).receiver.gapExpired s.houseTime).map Instr.byteGapExpiry
    ++ (audList.filter fun k => (s.aud k).boundaryDue).map
        (fun k => Instr.frameBoundary k (Config.snapshotFirst s.houseTime k))
    ++ (audList.filter fun k => (s.aud k).buildDue).map Instr.buildPoint
    ++ audList.filterMap s.ready

/-- The part with no command waiting: the work of this tick is posted, and where there is none a house tick
passes (log entry 2). -/
def State.idle (s : State) : State :=
  match s.work with
  | [] => s.tick
  | c :: rest => { s with pending := c :: rest }

end Sys2Proof.Machine
end

