-- ==== Sys2Proof/Machine/Completion.lean ====
section
/-! DEFINITION. The ends of memory accesses: reads completing (R44, R46, R65, R70, R79, R136, R137, R145, R146,
R150, R152), reads and writes that end in a memory error (R143, R144, R148, R183), and writes completing (R154,
R188). -/

namespace Sys2Proof.Machine

/-! ## Claims (R136, R137) -/

/-- The result of a BIND whose list count is settled (R137): TAKEN with the count and the CUES epoch. -/
def State.settleHeader (s : State) (k : Aud) (count : Nat) (tagReset : Bool) : State :=
  (s.modSeq k fun q => { q with listCount := count }).decide k (cTaken ||| tagResetBit tagReset)
    (bindReply (BitVec.ofNat 32 count) ((s.aud k).epochs.get .cues))

/-- R137: the result of a claim that has succeeded. For CUES the list header is read first. -/
def State.replyBind (s : State) (k : Aud) (role : Role) (limit : Word) (tagReset : Bool) : State :=
  if role = .cues then
    match s.access k .cues 0 4 [] .headerRead with
    | (s1, some tag) =>
      s1.modUnit k fun u => { u with batch := u.batch.map fun b => { b with phase := .counting tag tagReset } }
    | (s1, none) => s1.settleHeader k 0 tagReset
  else
    s.decide k (cTaken ||| tagResetBit tagReset) (bindReply (replyCapacity role limit) ((s.aud k).epochs.get role))

/-- R137: the claim succeeds. The write of the binding bytes is issued first (log entry 38). -/
def State.makeBinding (s : State) (k : Aud) (role : Role) (selector : Byte) (d : Descriptor)
    (tagReset : Bool) : State :=
  let s1 := s.addBinding k role selector d
  let s2 := (s1.writeBindingBytes (some k) role selector (boundBytes role k) .bindingWrite).await k (some s1.nextTag)
  (s2.prepareRole k role d.limit).replyBind k role d.limit tagReset

/-- R136, step 3: the map step. -/
def State.mapStep (s : State) (k : Aud) (role : Role) (selector : Byte) (held allowed tagReset : Bool)
    (d : Descriptor) : State :=
  if s.selectorTaken selector then s.decide k (cTaken ||| cBusy ||| tagResetBit tagReset) zeroReply
  else if held || !allowed then s.decide k (cTaken ||| cIllegal ||| tagResetBit tagReset) zeroReply
  else s.makeBinding k role selector d tagReset

/-- R136, step 2: the descriptor of a claim has been read. A claim the unit no longer waits for is discarded. R136 does
not order the REGION_FAULT report of a refused descriptor, which issues its entry write, with the result write: that the
report is made first is the model's choice (log entry 38). -/
def State.claimRead (s : State) (k : Aud) (tag : Nat) (bytes : List Byte) : State :=
  match (s.aud k).unit.batch.map Batch.phase with
  | some (.claiming t role selector held allowed tagReset) =>
    if t = tag then
      let d := parseDescriptor bytes
      match d.unfit role with
      | some cause =>
        (s.report k (.regionFault role selector cause (16 * selector.toNat))).decide k
          (cTaken ||| cRegion ||| tagResetBit tagReset) zeroReply
      | none => s.mapStep k role selector held allowed tagReset d
    else s
  | _ => s

/-- R136, step 2: the claim's descriptor read ended in a memory error, already reported: that the report comes before
the result is the model's choice (log entry 38). -/
def State.claimFailed (s : State) (k : Aud) (tag : Nat) : State :=
  match (s.aud k).unit.batch.map Batch.phase with
  | some (.claiming t _ _ _ _ tagReset) =>
    if t = tag then s.decide k (cTaken ||| cRegion ||| tagResetBit tagReset) zeroReply else s
  | _ => s

/-- R137: the header read a CUES bind waits for has ended; `count` is the list count. One that failed is reported
already: that the report comes before the result is the model's choice (log entry 38). -/
def State.headerEnded (s : State) (k : Aud) (tag count : Nat) : State :=
  match (s.aud k).unit.batch.map Batch.phase with
  | some (.counting t tagReset) => if t = tag then s.settleHeader k count tagReset else s
  | _ => s

/-! ## The start-up scan and the DARK check (R145, R146) -/

/-- A SHOW binding made by the part itself (R145, R146): the map entry, the epoch, and the binding bytes, whose
write is `purpose` and of auditorium `owner`. -/
def State.bindShow (s : State) (k : Aud) (selector : Byte) (d : Descriptor) (owner : Option Aud)
    (purpose : Purpose) : State :=
  (s.addBinding k .showRecord selector d).writeBindingBytes owner .showRecord selector
    (boundBytes .showRecord k) purpose

/-- The auditorium whose show record is `selector` (R132). -/
def showOwner (selector : Byte) : Option Aud :=
  if 1 ≤ selector.toNat ∧ selector.toNat ≤ 24 then some (Fin.ofNat 24 (selector.toNat - 1)) else none

/-- R145: a descriptor the scan has read. -/
def State.scanDescriptor (s : State) (selector : Byte) (d : Descriptor) : State :=
  let s1 :=
    if d.present then s.writeBindingBytes none .showRecord selector clearedBytes .startScanWrite else s
  match showOwner selector with
  | none => s1
  | some k =>
    if d.unfit .showRecord = none then s1.bindShow k selector d none .startScanWrite else s1

/-- R146: the descriptor of a DARK auditorium has been read. -/
def State.darkCheckRead (s : State) (k : Aud) (selector : Byte) (d : Descriptor) : State :=
  if (s.aud k).unit.showState = .dark ∧ d.unfit .showRecord = none then
    (s.bindShow k selector d (some k) .bindingWrite).becomeHalted k
  else s

/-! ## The show record (R150, R152) -/

/-- R150: the values of a head, handed to the Mixer and the Report Writer. -/
def State.handHead (s : State) (k : Aud) (d : List Byte) : State :=
  (s.modMixer k fun m => m.setFills (wordAt d 4) (wordAt d 8) (wordAt d 12)).modWriter k fun w =>
    { w with readCount := wordAt d 16 }

/-- R150: the first head read adopts the generation and writes the first snapshot. -/
def State.adopt (s : State) (k : Aud) (generation : Word) : State :=
  (s.modUnit k fun u => { u with ackGeneration := generation, firstHead := true }).snapshot k

/-- R152: begin a batch of `generation`. -/
def State.beginBatch (s : State) (k : Aud) (generation : Word) : State :=
  let batch : Batch := { generation := generation, slots := [], next := 0, phase := .reading, outstanding := [] }
  ((s.modUnit k fun u => { u with batch := some batch }).access k .showRecord 64 256 [] .slotRead).1

/-- R150, R152, R154: the head read issued under `tag` completes. One that was issued before the latest acknowledgement
completed begins no batch: the next batch begins with the head read of the next frame boundary at the earliest. -/
def State.headRead (s : State) (k : Aud) (tag : Nat) (d : List Byte) : State :=
  let s1 := s.handHead k d
  let generation := wordAt d 0
  if !(s.aud k).unit.firstHead then s1.adopt k generation
  else if generation = (s.aud k).unit.ackGeneration then s1
  else if (s.aud k).unit.batch.isSome then s1
  else if tag < (s.aud k).unit.headFrom then s1
  else s1.beginBatch k generation

/-- R152: the slot read completes; slot 0 is taken next. -/
def State.slotsRead (s : State) (k : Aud) (d : List Byte) : State :=
  match (s.aud k).unit.batch with
  | none => s
  | some b =>
    if b.phase = .reading then
      (s.modUnit k fun u => { u with batch := some { b with slots := parseSlots d } }).comeToSlot k 0
    else s

/-! ## Reads that complete: the blocks' part -/

/-- R44: an entry read, current by epoch and by generation (R42, R141). -/
def State.entryRead (s : State) (k : Aud) (gen index : Nat) (d : List Byte) : State :=
  if gen = (s.aud k).seq.seekGen then s.seqStep k fun env q => q.entryDone env index (parseEntry d) else s

/-- R46. -/
def State.textRead (s : State) (k : Aud) (gen : Nat) (cue : CueId) (d : List Byte) : State :=
  if gen = (s.aud k).seq.seekGen then s.seqStep k fun env q => q.textDone env cue d else s

/-- R65. -/
def State.scanRead (s : State) (k : Aud) (gen index : Nat) (d : List Byte) : State :=
  if gen = (s.aud k).seq.seekGen then s.seqStep k fun _ q => q.scanDone index (parseEntry d) else s

/-- R70. -/
def State.lookbackRead (s : State) (k : Aud) (gen index : Nat) (d : List Byte) : State :=
  if gen = (s.aud k).seq.seekGen then s.seqStep k fun env q => q.lookbackDone env index (parseEntry d) else s

/-- R79: a block read ends; `st` is its block or a failed one. -/
def State.blockRead (s : State) (k : Aud) (name : RingName) (gen : Nat) (number : Word) (st : BlockState) :
    State :=
  if gen = ((s.aud k).mixer.ring name).fetchGen then
    s.modMixer k fun m => m.modRing name fun r => r.blockDone number st
  else s

/-- What a read that completed without error does, its bytes `d` as R142 leaves them. A stale completion
reaches no block (R141). Table reads go to the claim, scan or check that issued them. -/
def State.readDone (s : State) (a : Access) (d : List Byte) : State :=
  match a.aud with
  | none => (s.scanDescriptor a.selector (parseDescriptor d)).settleScan
  | some k =>
    match a.purpose with
    | .claimRead => s.claimRead k a.tag d
    | .darkCheckRead => s.darkCheckRead k a.selector (parseDescriptor d)
    | purpose =>
      if s.isCurrent a then
        match purpose with
        | .entryRead gen index => s.entryRead k gen index d
        | .textRead gen cue => s.textRead k gen cue d
        | .scanRead gen index => s.scanRead k gen index d
        | .lookbackRead gen index => s.lookbackRead k gen index d
        | .blockRead name gen number => s.blockRead k name gen number (.held (parseBlock d))
        | .headerRead =>
          match s.binding k .cues with
          | none => s
          | some b => s.headerEnded k a.tag (listCountOf (wordAt d 0) b.limit)
        | .headRead => s.headRead k a.tag d
        | .slotRead => s.slotsRead k d
        | _ => s
      else s

/-! ## Memory errors (R143, R144) -/

/-- R143: the REGION_FAULT report of a memory error, or what stands in its place. -/
def State.memoryFault (s : State) (a : Access) : State :=
  match a.aud with
  | none => s
  | some k =>
    match a.purpose with
    | .darkCheckRead => s
    | .reportWrite => s.missReport k
    | _ => s.report k (.regionFault a.role a.selector .memory a.offset)

/-- R148: a show record access of auditorium `k` has failed and is reported (log entry 20). -/
def State.showFailed (s : State) (k : Aud) (a : Access) : State :=
  if a.live && (a.isWrite || s.isCurrent a) && !((s.aud k).unit.showState == .dark) then s.becomeDark k else s

/-- A sequencer's failed read, current by generation: the sequencer acts as `f` says (R47, R48). -/
def State.seqFailed (s : State) (k : Aud) (a : Access) (gen : Nat)
    (f : SeqEnv → Sequencer → Sequencer × List SeqOut) : State :=
  if s.isCurrent a ∧ gen = (s.aud k).seq.seekGen then s.seqStep k f else s

/-- What the block that made the access does at a memory error (R143). -/
def State.blockFailed (s : State) (k : Aud) (a : Access) : State :=
  match a.purpose with
  | .entryRead gen index => s.seqFailed k a gen fun env q => q.faultAt env index
  | .textRead gen cue => s.seqFailed k a gen fun env q => q.textFailed env cue
  | .scanRead gen index => s.seqFailed k a gen fun env q => q.scanFailed env index
  | .lookbackRead gen index => s.seqFailed k a gen fun env q => q.lookbackFailed env index
  | .blockRead name gen number => if s.isCurrent a then s.blockRead k name gen number .failed else s
  | .headerRead => if s.isCurrent a then s.headerEnded k a.tag 0 else s
  | .headRead => s.showFailed k a
  | .slotRead => s.showFailed k a
  | .claimRead => s.claimFailed k a.tag
  | .startScanRead => s
  | .darkCheckRead => s.setHouseFault
  | .resultWrite => s.showFailed k a
  | .snapshotWrite => s.showFailed k a
  | .ackWrite => s.showFailed k a
  | .flagWrite => s.batchDone k a.tag
  | .reportWrite => s
  | .bindingWrite => s.batchDone k a.tag
  | .startScanWrite => s

/-- The access ended in a memory error in SCANNING or RUNNING: reported first, then taken by its block. R148, R154 and
R189 give this order for the show record, the writes a batch waits for and the Sequencer's fault. R136 and R137 leave it
open, and there it is the model's choice (log entry 38); the other blocks issue no access at a memory error. -/
def State.accessFailed (s : State) (a : Access) : State :=
  match a.aud with
  | none => s.scanFailed
  | some k => (s.memoryFault a).blockFailed k a

/-! ## The end of an access in each part state -/

/-- An access ends in `f` while the part is SCANNING or RUNNING; in STOPPING it only lets the part stop (R183,
R184). -/
def State.endAccess (s : State) (f : State → State) : State :=
  match s.partState with
  | .scanning => f s
  | .running => f s
  | .stopping => s.settleStop
  | .stopped => s

/-- The access in flight under `tag` that a command of its sort may end. -/
def State.findAccess (s : State) (tag : Nat) (sort : Purpose → Bool) : Option Access :=
  s.inFlight.find? fun a => a.tag == tag && sort a.purpose

/-- A read in flight under `tag` ends with the completion `c`. There may be none: it was given up, or the part
was reset (R143, R185). -/
def State.endRead (s : State) (tag : Nat) (sort : Purpose → Bool) (c : Completion) : State :=
  match s.findAccess tag sort with
  | none => s
  | some a =>
    match c with
    | .ok d => (s.dropAccess tag).endAccess fun s => s.readDone a (a.received d)
    | .error => (s.dropAccess tag).endAccess fun s => s.accessFailed a

/-- A read gives up (R143). -/
def State.giveUp (s : State) (tag : Nat) : State :=
  match s.inFlight.find? fun a => a.tag == tag && s.overdue a with
  | none => s
  | some a => (s.dropAccess tag).endAccess fun s => s.accessFailed a

/-- R154: the acknowledgement write has completed: the batch is no longer in flight, head reads issued from now on may
begin the next one, and NOTICE is set. -/
def State.acknowledged (s : State) (k : Aud) : State :=
  (s.modUnit k fun u => { u with batch := none, headFrom := s.nextTag }).setNotice

/-- What a write that completed without error does. -/
def State.writeDone (s : State) (a : Access) : State :=
  match a.aud with
  | none => s.settleScan
  | some k =>
    match a.purpose with
    | .resultWrite => s.batchDone k a.tag
    | .flagWrite => s.batchDone k a.tag
    | .bindingWrite => s.batchDone k a.tag
    | .ackWrite => if a.live then s.acknowledged k else s
    | .reportWrite => s.setNotice
    | _ => s

/-- The write `a` takes effect and ends, `ok` false where the host signalled an error for it. -/
def State.writeEnded (s : State) (a : Access) (ok : Bool) : State :=
  if ok then (s.dropAccess a.tag).endAccess fun s => s.writeDone a
  else ((s.dropAccess a.tag).withdraw a.tag).endAccess fun s => s.accessFailed a

/-- The host answers a write in flight under `tag`. It ends, unless an access issued before it to a byte in common is
still in flight: then the answer is kept (R142; log entry 36). The first answer stands. -/
def State.endWrite (s : State) (tag : Nat) (sort : Purpose → Bool) (ok : Bool) : State :=
  match s.findAccess tag sort with
  | none => s
  | some a =>
    if s.mustWait a then s.keepAnswer tag (a.answer.getD ok) else s.writeEnded a (a.answer.getD ok)

/-! ## Sorts of access -/

def Purpose.isEntryRead : Purpose → Bool
  | .entryRead _ _ => true
  | _ => false

def Purpose.isTextRead : Purpose → Bool
  | .textRead _ _ => true
  | _ => false

def Purpose.isScanRead : Purpose → Bool
  | .scanRead _ _ => true
  | _ => false

def Purpose.isLookbackRead : Purpose → Bool
  | .lookbackRead _ _ => true
  | _ => false

def Purpose.isBlockRead : Purpose → Bool
  | .blockRead _ _ _ => true
  | _ => false

def Purpose.isDescriptorRead : Purpose → Bool
  | .claimRead => true
  | .startScanRead => true
  | .darkCheckRead => true
  | _ => false

def Purpose.isHeaderRead : Purpose → Bool
  | .headerRead => true
  | _ => false

def Purpose.isHeadRead : Purpose → Bool
  | .headRead => true
  | _ => false

def Purpose.isSlotRead : Purpose → Bool
  | .slotRead => true
  | _ => false

/-- The writes that WRITE_COMPLETE ends: results and replies, snapshots, binding bytes, flags (R154). -/
def Purpose.isPlainWrite : Purpose → Bool
  | .resultWrite => true
  | .snapshotWrite => true
  | .flagWrite => true
  | .bindingWrite => true
  | .startScanWrite => true
  | _ => false

def Purpose.isAckWrite : Purpose → Bool
  | .ackWrite => true
  | _ => false

def Purpose.isReportWrite : Purpose → Bool
  | .reportWrite => true
  | _ => false

/-! ## The commands -/

/-- ENTRY_READ_COMPLETE (R44, R48). -/
def execEntryReadComplete (tag : Nat) (c : Completion) (s : State) : Host.Outcome State Fault Refusal :=
  .next (s.endRead tag Purpose.isEntryRead c)

/-- TEXT_READ_COMPLETE (R46, R47). -/
def execTextReadComplete (tag : Nat) (c : Completion) (s : State) : Host.Outcome State Fault Refusal :=
  .next (s.endRead tag Purpose.isTextRead c)

/-- SCAN_READ_COMPLETE (R65). -/
def execScanReadComplete (tag : Nat) (c : Completion) (s : State) : Host.Outcome State Fault Refusal :=
  .next (s.endRead tag Purpose.isScanRead c)

/-- LOOKBACK_READ_COMPLETE (R69 to R71). -/
def execLookbackReadComplete (tag : Nat) (c : Completion) (s : State) : Host.Outcome State Fault Refusal :=
  .next (s.endRead tag Purpose.isLookbackRead c)

/-- BLOCK_READ_COMPLETE (R79). -/
def execBlockReadComplete (tag : Nat) (c : Completion) (s : State) : Host.Outcome State Fault Refusal :=
  .next (s.endRead tag Purpose.isBlockRead c)

/-- DESCRIPTOR_READ_COMPLETE (R136, R145, R146). -/
def execDescriptorReadComplete (tag : Nat) (c : Completion) (s : State) : Host.Outcome State Fault Refusal :=
  .next (s.endRead tag Purpose.isDescriptorRead c)

/-- CUE_LIST_HEADER_READ_COMPLETE (R137). -/
def execCueListHeaderReadComplete (tag : Nat) (c : Completion) (s : State) :
    Host.Outcome State Fault Refusal :=
  .next (s.endRead tag Purpose.isHeaderRead c)

/-- HEAD_READ_COMPLETE (R150). -/
def execHeadReadComplete (tag : Nat) (c : Completion) (s : State) : Host.Outcome State Fault Refusal :=
  .next (s.endRead tag Purpose.isHeadRead c)

/-- SLOT_READ_COMPLETE (R152). -/
def execSlotReadComplete (tag : Nat) (c : Completion) (s : State) : Host.Outcome State Fault Refusal :=
  .next (s.endRead tag Purpose.isSlotRead c)

/-- READ_GIVE_UP (R143). -/
def execReadGiveUp (tag : Nat) (s : State) : Host.Outcome State Fault Refusal := .next (s.giveUp tag)

/-- WRITE_COMPLETE (R154, R143). -/
def execWriteComplete (tag : Nat) (ok : Bool) (s : State) : Host.Outcome State Fault Refusal :=
  .next (s.endWrite tag Purpose.isPlainWrite ok)

/-- ACK_WRITE_COMPLETE (R154). -/
def execAckWriteComplete (tag : Nat) (ok : Bool) (s : State) : Host.Outcome State Fault Refusal :=
  .next (s.endWrite tag Purpose.isAckWrite ok)

/-- REPORT_ENTRY_WRITE_COMPLETE (R188). -/
def execReportEntryWriteComplete (tag : Nat) (ok : Bool) (s : State) : Host.Outcome State Fault Refusal :=
  .next (s.endWrite tag Purpose.isReportWrite ok)

end Sys2Proof.Machine
end

