-- ==== Sys2Proof/Machine/Control.lean ====
section
/-! DEFINITION. The commands on the part and its registers (11_registers_reports_and_start_up.md). -/

namespace Sys2Proof.Machine

/-- POWER_ON (R186). -/
def execPowerOn (s : State) : Host.Outcome State Fault Refusal := .next s.powerOn

/-- SOFT_RESET (R185). -/
def execSoftReset (s : State) : Host.Outcome State Fault Refusal := .next s.softReset

/-- PART_START (R178, R182). -/
def execPartStart (s : State) : Host.Outcome State Fault Refusal := .next s.writeRunOne

/-- PART_STOP (R178, R183, R184). -/
def execPartStop (s : State) : Host.Outcome State Fault Refusal := .next s.writeRunZero

/-- NOTICE_EN (R178, R180). -/
def execNoticeEn (v : Bool) (s : State) : Host.Outcome State Fault Refusal := .next (s.setNoticeEn v)

/-- STATUS_READ (R179). -/
def execStatusRead (s : State) : Host.Outcome State Fault Refusal := .next s.readStatus

/-- REGISTER_WRITE (R177, R178, R192). -/
def execRegisterWrite (offset : Byte) (v : Word) (s : State) : Host.Outcome State Fault Refusal :=
  .next (s.writeWindow offset v)

end Sys2Proof.Machine
end

