-- ==== Sys2Proof/Machine/Directives.lean ====
section
/-! DEFINITION. The directives of 09_show_records_and_directives.md (R155 to R164), each taken from the slot its
batch has come to. -/

namespace Sys2Proof.Machine

/-- A directive stands only where the batch of its auditorium has come to a slot that holds it (R153; log entries
1 and 27). -/
def State.taking (s : State) (k : Aud) (c : Instr) (f : State → State) : State :=
  if s.ready k = some c then f s else s

/-- The tag state is not EMPTY, so a directive that is no tag directive gets TAG_RESET (R168). -/
def State.tagHeld (s : State) (k : Aud) : Bool := !((s.aud k).unit.tag == .empty)

/-- R168: the tag state becomes EMPTY. -/
def State.emptyTag (s : State) (k : Aud) : State := s.modUnit k fun u => { u with tag := .empty }

/-- A directive other than a tag directive and MARK is decided at once: its condition beside TAKEN, TAG_RESET
where the tag state was held, and the tag state EMPTY (R155, R168). `s` holds its effects. -/
def State.settle (s : State) (k : Aud) (condition : Byte) : State :=
  (s.emptyTag k).decide k (cTaken ||| condition ||| tagResetBit (s.tagHeld k)) zeroReply

/-- The show state of auditorium `k`. -/
def State.show (s : State) (k : Aud) : ShowState := (s.aud k).unit.showState

/-! ## BIND and RELEASE (R157, R158) -/

/-- R157: CUES and PAYLOAD are bound in HALTED only, the others in every show state but DARK. -/
def bindAllowed (role : Role) (show_ : ShowState) : Bool :=
  match role with
  | .cues => show_ == .halted
  | .payload => show_ == .halted
  | .showRecord => false
  | .narrationA => !(show_ == .dark)
  | .narrationB => !(show_ == .dark)
  | .bed => !(show_ == .dark)
  | .reports => !(show_ == .dark)

/-- A role a directive may name: one of the seven but SHOW (R136, R138). -/
def directiveRole (code : Byte) : Option Role := (roleOfCode code).filter fun r => !(r == .showRecord)

/-- R136, step 1, of a selector. -/
def State.selectorServes (s : State) (selector : Byte) : Bool :=
  24 < selector.toNat && selector.toNat < s.latchedCount.toNat

/-- R136, step 2: the claim's descriptor read is issued, and the batch waits for it with the two facts of R157. -/
def State.claim (s : State) (k : Aud) (role : Role) (selector : Byte) : State :=
  let phase : BatchPhase :=
    .claiming s.nextTag role selector (s.holdsRole k role) (bindAllowed role (s.show k)) (s.tagHeld k)
  ((s.emptyTag k).modUnit k fun u =>
      { u with batch := u.batch.map fun b => { b with phase := phase } }).readDescriptor
    (some k) role selector .claimRead

/-- R157. -/
def State.doBind (s : State) (k : Aud) (role selector : Byte) : State :=
  match directiveRole role with
  | none => s.settle k cParameter
  | some r => if s.selectorServes selector then s.claim k r selector else s.settle k cParameter

/-- BIND (R157, R136). -/
def execBind (k : Aud) (role selector : Byte) (s : State) : Host.Outcome State Fault Refusal :=
  .next (s.taking k (.bind k role selector) fun s => s.doBind k role selector)

/-- R158: CUES and PAYLOAD are released in HALTED only. -/
def releaseAllowed (role : Role) (show_ : ShowState) : Bool :=
  if role = .cues ∨ role = .payload then show_ == .halted else true

/-- R138: the release of the binding `b`. The write of its binding bytes is issued before the result (log entry
38). -/
def State.releaseBinding (s : State) (k : Aud) (role : Role) (b : Binding) : State :=
  let s1 := s.unbindRole k role
  let s2 := (s1.writeBindingBytes (some k) role b.selector clearedBytes .bindingWrite).await k (some s1.nextTag)
  (s2.retireRole k role).settle k 0

/-- R158. -/
def State.doRelease (s : State) (k : Aud) (role : Byte) : State :=
  match directiveRole role with
  | none => s.settle k cParameter
  | some r =>
    match s.binding k r with
    | none => s.settle k cIllegal
    | some b => if releaseAllowed r (s.show k) then s.releaseBinding k r b else s.settle k cIllegal

/-- RELEASE (R158, R138). -/
def execRelease (k : Aud) (role : Byte) (s : State) : Host.Outcome State Fault Refusal :=
  .next (s.taking k (.release k role) fun s => s.doRelease k role)

/-! ## RUN and HALT (R159, R160) -/

/-- R159: the blocks at a RUN. -/
def Auditorium.run (a : Auditorium) : Auditorium :=
  { a with
    receiver := a.receiver.run, clock := a.clock.run, seq := a.seq.run, mixer := a.mixer.run
    builder := a.builder.run, link := a.link.run, unit := { a.unit with showState := .running } }

/-- R159, checks in order: the condition that refuses a RUN. -/
def State.runRefusal (s : State) (k : Aud) : Option Byte :=
  if s.show k = .running then some cIllegal
  else if s.show k = .closing then some cBusy
  else if !s.holdsRole k .cues && !s.holdsRole k .narrationA && !s.holdsRole k .narrationB then some cIllegal
  else if s.holdsRole k .cues != s.holdsRole k .payload then some cParameter
  else none

/-- R159. -/
def State.doRun (s : State) (k : Aud) : State :=
  match s.runRefusal k with
  | some condition => s.settle k condition
  | none => (s.modAud k Auditorium.run).settle k 0

/-- RUN (R159). -/
def execRun (k : Aud) (s : State) : Host.Outcome State Fault Refusal :=
  .next (s.taking k (.run k) fun s => s.doRun k)

/-- R160: the blocks at a HALT taken in RUNNING. The Builder is CLOSING before the Sequencer sends its requests,
and ignores them (R113; log entry 6). -/
def State.haltShow (s : State) (k : Aud) : State :=
  let idle := (s.aud k).clock.toIdle
  let s1 := s.modAud k fun a =>
    { a with
      clock := idle.1, builder := a.builder.halt a.unit.channels.copies
      unit := { a.unit with showState := .closing } }
  let s2 := if idle.2 then s1.deliver k .clear else s1
  (s2.seqStep k fun env q => q.halt env).modMixer k Mixer.halt

/-- R160. -/
def State.doHalt (s : State) (k : Aud) : State :=
  if s.show k = .running then (s.haltShow k).settle k 0 else s.settle k 0

/-- HALT (R160). -/
def execHalt (k : Aud) (s : State) : Host.Outcome State Fault Refusal :=
  .next (s.taking k (.halt k) fun s => s.doHalt k)

/-! ## Settings (R161 to R163) -/

/-- R161: the range checks in the order of its table; the settings a SET_CHANNELS carries. -/
def channelsOf (captions narration copies refresh check address : Byte) : Option ChannelSettings :=
  if 15 < captions.toNat then none
  else if 3 < narration.toNat then none
  else if 3 < copies.toNat then none
  else if 1 < check.toNat then none
  else if 63 < address.toNat then none
  else some
    { captions := captions.setWidth 4, narration := narration.setWidth 2, copies := copies.toNat
      refresh := max 5 (min 250 refresh.toNat), checkOn := check == 1, address := address.setWidth 6 }

/-- R161: the masks and the address are as the settings in force have them. -/
def ChannelSettings.restates (new old : ChannelSettings) : Bool :=
  new.captions == old.captions && new.narration == old.narration && new.address == old.address

/-- R161. -/
def State.doSetChannels (s : State) (k : Aud) (settings : Option ChannelSettings) : State :=
  match settings with
  | none => s.settle k cParameter
  | some c =>
    if (s.show k = .running ∨ s.show k = .closing) ∧ !c.restates (s.aud k).unit.channels then s.settle k cIllegal
    else (s.modUnit k fun u => { u with channels := c }).settle k 0

/-- SET_CHANNELS (R161). -/
def execSetChannels (k : Aud) (captions narration copies refresh check address : Byte) (s : State) :
    Host.Outcome State Fault Refusal :=
  .next (s.taking k (.setChannels k captions narration copies refresh check address) fun s =>
    s.doSetChannels k (channelsOf captions narration copies refresh check address))

/-- R162: the checks and clamps; the settings a SET_LOOP carries. -/
def loopOf (c0 c1 c2 : Half) (pm : Byte) (epsMax : Half) (holdover : Byte) (trim : Half) :
    Option LoopSettings :=
  if 15 < pm.toNat then none
  else if trim.toInt < -4800 ∨ 4800 < trim.toInt then none
  else some
    { c0 := c0.toInt, c1 := c1.toInt, c2 := c2.toInt, pm := pm.toNat, epsMax := min epsMax.toNat 8388
      holdover := max holdover.toNat 11, trim := trim.toInt }

/-- R162, R34. -/
def State.doSetLoop (s : State) (k : Aud) (settings : Option LoopSettings) : State :=
  match settings with
  | none => s.settle k cParameter
  | some l => (s.modClock k fun c => c.setLoop l).settle k 0

/-- SET_LOOP (R162, R34). -/
def execSetLoop (k : Aud) (c0 c1 c2 : Half) (pm : Byte) (epsMax : Half) (holdover : Byte) (trim : Half)
    (s : State) : Host.Outcome State Fault Refusal :=
  .next (s.taking k (.setLoop k c0 c1 c2 pm epsMax holdover trim) fun s =>
    s.doSetLoop k (loopOf c0 c1 c2 pm epsMax holdover trim))

/-- R163, R91. -/
def State.doSetMix (s : State) (k : Aud) (m : MixSettings) : State :=
  (s.modMixer k fun x => { x with settings := m }).settle k 0

/-- SET_MIX (R163, R91). -/
def execSetMix (k : Aud) (gn gb gd attack release : Half) (s : State) : Host.Outcome State Fault Refusal :=
  .next (s.taking k (.setMix k gn gb gd attack release) fun s =>
    s.doSetMix k (clampMix gn gb gd attack release))

/-! ## MARK and unknown kinds (R164, R155) -/

/-- MARK (R164): TAKEN, the tag state as it stands. -/
def execMark (k : Aud) (s : State) : Host.Outcome State Fault Refusal :=
  .next (s.taking k (.mark k) fun s => s.decide k cTaken (markReply (s.aud k) s.houseTime))

/-- UNKNOWN_DIRECTIVE (R155, R168). -/
def execUnknownDirective (k : Aud) (kind : Byte) (s : State) : Host.Outcome State Fault Refusal :=
  .next (s.taking k (.unknownDirective k kind) fun s => s.settle k cIllegal)

end Sys2Proof.Machine
end

