-- ==== Sys2Proof/Machine/Exchange.lean ====
section
/-! DEFINITION. The exchanges of an emitter link (07_emitter_links.md). -/

namespace Sys2Proof.Machine

/-- CALL (R119). -/
def execCall (k : Aud) (s : State) : Host.Outcome State Fault Refusal :=
  .next (s.linkStep k ((s.aud k).link.callExchange (s.aud k).unit.channels) [])

/-- CALL_ANSWER (R120, R126, R130). -/
def execCallAnswer (k : Aud) (b : Byte) (s : State) : Host.Outcome State Fault Refusal :=
  .next (s.linkStep k ((s.aud k).link.answerExchange b).1 ((s.aud k).link.answerExchange b).2)

/-- SEND_EXCHANGE (R121). -/
def execSendExchange (k : Aud) (b : Byte) (s : State) : Host.Outcome State Fault Refusal :=
  .next (s.linkStep k ((s.aud k).link.sendExchange b) [])

/-- VERDICT (R123, R124, R126, R130). -/
def execVerdict (k : Aud) (b : Byte) (s : State) : Host.Outcome State Fault Refusal :=
  .next (s.linkStep k ((s.aud k).link.verdictExchange b).1 ((s.aud k).link.verdictExchange b).2)

/-- WAIT_POLL (R125). -/
def execWaitPoll (k : Aud) (b : Byte) (s : State) : Host.Outcome State Fault Refusal :=
  .next (s.linkStep k ((s.aud k).link.waitExchange b) [])

end Sys2Proof.Machine
end

