-- ==== Sys2Proof/Machine/Retraction.lean ====
section
/-! DEFINITION. The tag directives and RETRACT (10_retraction.md, R167 to R175). -/

namespace Sys2Proof.Machine

/-- A tag directive is decided: its conditions beside TAKEN and its reply. It never gets TAG_RESET (R168). -/
def State.settleTag (s : State) (k : Aud) (condition : Byte) (reply : List Byte) : State :=
  s.decide k (cTaken ||| condition) reply

/-- Set the tag state. -/
def State.setTag (s : State) (k : Aud) (t : TagState) : State := s.modUnit k fun u => { u with tag := t }

/-! ## TAG_FIRST, TAG_LAST, UNTAG (R169 to R171) -/

/-- R169: the condition that refuses a TAG_FIRST, or the tag state after it. -/
def tagFirstResult (held : Bool) (listCount index : Nat) : Except Byte TagState :=
  if !held then .error cIllegal
  else if listCount ≤ index then .error cParameter
  else .ok (.firstSet index)

/-- R170: the condition that refuses a TAG_LAST, or the tag state after it. -/
def tagLastResult (held : Bool) (listCount index : Nat) (t : TagState) : Except Byte TagState :=
  if !held then .error cIllegal
  else
    match t with
    | .firstSet first =>
      if index < first ∨ listCount ≤ index ∨ 1024 ≤ index - first then .error cParameter
      else .ok (.rangeSet first index [])
    | .empty => .error cSequence
    | .rangeSet _ _ _ => .error cSequence

/-- R171: the condition that refuses an UNTAG, or the tag state after it. -/
def untagResult (held : Bool) (index : Nat) (t : TagState) : Except Byte TagState :=
  if !held then .error cIllegal
  else
    match t with
    | .rangeSet first last untags =>
      if index < first ∨ last < index then .error cParameter
      else if index ∈ untags then .ok t
      else if 8 ≤ untags.length then .error cParameter
      else .ok (.rangeSet first last (untags ++ [index]))
    | .empty => .error cSequence
    | .firstSet _ => .error cSequence

/-- The tag state or the refusal of a tag directive, decided at once with a reply of all 0. -/
def State.settleTagResult (s : State) (k : Aud) (r : Except Byte TagState) : State :=
  match r with
  | .error condition => s.settleTag k condition zeroReply
  | .ok t => (s.setTag k t).settleTag k 0 zeroReply

/-- TAG_FIRST (R169). -/
def execTagFirst (k : Aud) (index : Half) (s : State) : Host.Outcome State Fault Refusal :=
  .next (s.taking k (.tagFirst k index) fun s =>
    s.settleTagResult k (tagFirstResult (s.holdsRole k .cues) (s.aud k).seq.listCount index.toNat))

/-- TAG_LAST (R170). -/
def execTagLast (k : Aud) (index : Half) (s : State) : Host.Outcome State Fault Refusal :=
  .next (s.taking k (.tagLast k index) fun s =>
    s.settleTagResult k
      (tagLastResult (s.holdsRole k .cues) (s.aud k).seq.listCount index.toNat (s.aud k).unit.tag))

/-- UNTAG (R171). -/
def execUntag (k : Aud) (index : Half) (s : State) : Host.Outcome State Fault Refusal :=
  .next (s.taking k (.untag k index) fun s =>
    s.settleTagResult k (untagResult (s.holdsRole k .cues) index.toNat (s.aud k).unit.tag))

/-! ## RETRACT (R172 to R175) -/

/-- The four cases of R173. -/
inductive Judgement where
  | active (channel : Channel) (cue : CueId)
  | past
  | staged
  | ahead
  deriving DecidableEq, Repr

/-- The active cue of index `i`, with its channel. -/
def Sequencer.activeOfIndex (q : Sequencer) (i : Nat) : Option (Channel × CueId) :=
  channelList.findSome? fun c => (q.active[c].find? fun a => a.cue.index == i).map fun a => (c, a.cue)

/-- R173: the first case that applies to index `i`. -/
def Sequencer.judge (q : Sequencer) (i : Nat) : Judgement :=
  match q.activeOfIndex i with
  | some (c, cue) => .active c cue
  | none =>
    if i < q.cursor then .past
    else if q.window.any (·.index == i) then .staged
    else .ahead

/-- R173: the indices a range judges, in rising order. -/
def retractIndices (first last : Nat) (untags : List Nat) : List Nat :=
  ((List.range (last + 1)).drop first).filter fun i => !untags.contains i

/-- R174: the flag write of entry `i`. -/
def State.writeFlag (s : State) (k : Aud) (i : Nat) : State :=
  let (s1, tag) := s.access k .cues (entryOffset i + 18) 1 [1] .flagWrite
  s1.await k tag

/-- R173: the slot of index `i` takes the retracted mark. -/
def markSlot (i : Nat) (x : Slot) : Slot := if x.index = i then { x with retracted := true } else x

/-- R173, R174: the treatment of one index as judged. -/
def State.retractOne (s : State) (k : Aud) (i : Nat) (j : Judgement) : State :=
  match j with
  | .active c cue =>
    (s.seqStep k fun _ q =>
      ({ q with active := removeActive q.active c cue }, [.remove c cue .retracted])).writeFlag k i
  | .past => s
  | .staged => (s.modSeq k fun q => { q with window := q.window.map (markSlot i) }).writeFlag k i
  | .ahead => s.writeFlag k i

/-- R173: every index of the range, judged against the sequencer as it stands when the RETRACT is taken. -/
def judgeAll (q : Sequencer) (indices : List Nat) : List (Nat × Judgement) :=
  indices.map fun i => (i, q.judge i)

/-- R175: the past count. -/
def pastCount (l : List (Nat × Judgement)) : Nat := l.countP fun x => x.2 == .past

/-- R173 to R175: a RETRACT that passes, over the indices as judged. Its flag writes are issued in
rising index order (R174); that they come before the result is the model's choice (log entry 38). -/
def State.retractAll (s : State) (k : Aud) (l : List (Nat × Judgement)) : State :=
  ((l.foldl (fun s x => s.retractOne k x.1 x.2) s).setTag k .empty).settleTag k
    (if 0 < pastCount l then cPartial else 0) (retractReply (l.length - pastCount l) (pastCount l))

/-- R172. -/
def State.doRetract (s : State) (k : Aud) : State :=
  if !s.holdsRole k .cues then s.settleTag k cIllegal zeroReply
  else
    match (s.aud k).unit.tag with
    | .rangeSet first last untags =>
      if (s.aud k).seq.state = .seeking then s.settleTag k cBusy zeroReply
      else s.retractAll k (judgeAll (s.aud k).seq (retractIndices first last untags))
    | .empty => s.settleTag k cSequence zeroReply
    | .firstSet _ => s.settleTag k cSequence zeroReply

/-- RETRACT (R172). -/
def execRetract (k : Aud) (s : State) : Host.Outcome State Fault Refusal :=
  .next (s.taking k (.retract k) fun s => s.doRetract k)

end Sys2Proof.Machine
end

