-- ==== Sys2Proof/Machine/Timecode.lean ====
section
/-! DEFINITION. The commands of a timecode line (01_timecode_lines_and_position_reports.md): a byte, and the
byte gap. -/

namespace Sys2Proof.Machine

/-- A position report is delivered to the clock (R9, R17), which may report and signal. -/
def State.deliverReport (s : State) (k : Aud) (p : PositionReport) : State :=
  s.clockStep k ((s.aud k).clock.report p)

/-- A byte arrives on line `k` (R1 to R9). -/
def State.takeByte (s : State) (k : Aud) (b : Byte) : State :=
  let r := (s.aud k).receiver.take s.houseTime b (s.aud k).clock.loop.trim
  let s1 := s.modReceiver k fun _ => r.1
  match r.2 with
  | none => s1
  | some p => s1.deliverReport k p

/-- TIMECODE_BYTE_ARRIVAL (R1, R3): a part that is not RUNNING discards the byte. -/
def execTimecodeByteArrival (k : Aud) (b : Byte) (s : State) : Host.Outcome State Fault Refusal :=
  .next (if s.partState = .running then s.takeByte k b else s)

/-- BYTE_GAP_EXPIRY (R4). -/
def execByteGapExpiry (k : Aud) (s : State) : Host.Outcome State Fault Refusal :=
  .next (if (s.aud k).receiver.gapExpired s.houseTime then s.modReceiver k Receiver.abandon else s)

end Sys2Proof.Machine
end

