-- ==== Sys2Proof/Machine/Dispatch.lean ====
section
/-! DEFINITION. The meaning of every command: one arm per row of spec/opcode_table.json. -/

namespace Sys2Proof.Machine

/-- The effect of a command on everything but the queue of waiting commands. -/
def exec (i : Instr) (s : State) : Host.Outcome State Fault Refusal :=
  match i with
  | .powerOn => Sys2Proof.Machine.execPowerOn s
  | .softReset => Sys2Proof.Machine.execSoftReset s
  | .partStart => Sys2Proof.Machine.execPartStart s
  | .partStop => Sys2Proof.Machine.execPartStop s
  | .noticeEn v => Sys2Proof.Machine.execNoticeEn v s
  | .statusRead => Sys2Proof.Machine.execStatusRead s
  | .registerWrite offset v => Sys2Proof.Machine.execRegisterWrite offset v s
  | .timecodeByteArrival k b => Sys2Proof.Machine.execTimecodeByteArrival k b s
  | .byteGapExpiry k => Sys2Proof.Machine.execByteGapExpiry k s
  | .frameBoundary k snapshotFirst => Sys2Proof.Machine.execFrameBoundary k snapshotFirst s
  | .buildPoint k => Sys2Proof.Machine.execBuildPoint k s
  | .call k => Sys2Proof.Machine.execCall k s
  | .callAnswer k b => Sys2Proof.Machine.execCallAnswer k b s
  | .sendExchange k b => Sys2Proof.Machine.execSendExchange k b s
  | .verdict k b => Sys2Proof.Machine.execVerdict k b s
  | .waitPoll k b => Sys2Proof.Machine.execWaitPoll k b s
  | .entryReadComplete tag c => Sys2Proof.Machine.execEntryReadComplete tag c s
  | .textReadComplete tag c => Sys2Proof.Machine.execTextReadComplete tag c s
  | .scanReadComplete tag c => Sys2Proof.Machine.execScanReadComplete tag c s
  | .lookbackReadComplete tag c => Sys2Proof.Machine.execLookbackReadComplete tag c s
  | .blockReadComplete tag c => Sys2Proof.Machine.execBlockReadComplete tag c s
  | .descriptorReadComplete tag c => Sys2Proof.Machine.execDescriptorReadComplete tag c s
  | .cueListHeaderReadComplete tag c => Sys2Proof.Machine.execCueListHeaderReadComplete tag c s
  | .headReadComplete tag c => Sys2Proof.Machine.execHeadReadComplete tag c s
  | .slotReadComplete tag c => Sys2Proof.Machine.execSlotReadComplete tag c s
  | .readGiveUp tag => Sys2Proof.Machine.execReadGiveUp tag s
  | .writeComplete tag ok => Sys2Proof.Machine.execWriteComplete tag ok s
  | .ackWriteComplete tag ok => Sys2Proof.Machine.execAckWriteComplete tag ok s
  | .reportEntryWriteComplete tag ok => Sys2Proof.Machine.execReportEntryWriteComplete tag ok s
  | .bind k role selector => Sys2Proof.Machine.execBind k role selector s
  | .release k role => Sys2Proof.Machine.execRelease k role s
  | .run k => Sys2Proof.Machine.execRun k s
  | .halt k => Sys2Proof.Machine.execHalt k s
  | .setChannels k captions narration copies refresh check address => Sys2Proof.Machine.execSetChannels k captions narration copies refresh check address s
  | .setLoop k c0 c1 c2 pm epsMax holdover trim => Sys2Proof.Machine.execSetLoop k c0 c1 c2 pm epsMax holdover trim s
  | .setMix k gn gb gd attack release => Sys2Proof.Machine.execSetMix k gn gb gd attack release s
  | .mark k => Sys2Proof.Machine.execMark k s
  | .tagFirst k index => Sys2Proof.Machine.execTagFirst k index s
  | .tagLast k index => Sys2Proof.Machine.execTagLast k index s
  | .untag k index => Sys2Proof.Machine.execUntag k index s
  | .retract k => Sys2Proof.Machine.execRetract k s
  | .unknownDirective k kind => Sys2Proof.Machine.execUnknownDirective k kind s

end Sys2Proof.Machine
end

