-- ==== Sys2Proof/Safety.lean ====
section
/-! DEFINITION. The terms the statements use: what the manual promises of each block in every state, what a
command leaves alone, and when a directive or a completion stands. -/

namespace Sys2Proof.Machine

/-! ## Promises about one block -/

/-- The assembly buffer agrees with the receiver's state (R1 to R3): empty with no ticks in HUNTING, 1 to 9 bytes
that begin with the sync byte in ASSEMBLING. -/
structure Receiver.Sound (r : Receiver) : Prop where
  hunting : r.state = .hunting → r.buffer = [] ∧ r.firstTick = none ∧ r.latestTick = none
  assembling : r.state = .assembling →
    r.buffer.head? = some 0xA5#8 ∧ r.buffer.length ≤ 9 ∧ r.firstTick.isSome = true ∧ r.latestTick.isSome = true

/-- The loop settings lie in their ranges (R12, R162). -/
structure LoopSettings.Within (l : LoopSettings) : Prop where
  c0 : -32768 ≤ l.c0 ∧ l.c0 ≤ 32767
  c1 : -32768 ≤ l.c1 ∧ l.c1 ≤ 32767
  c2 : -32768 ≤ l.c2 ∧ l.c2 ≤ 32767
  pm : l.pm ≤ 15
  epsMax : l.epsMax ≤ 8388
  holdover : 11 ≤ l.holdover ∧ l.holdover ≤ 255
  trim : -4800 ≤ l.trim ∧ l.trim ≤ 4800

/-- Every item of a Show Clock lies in its range (R12, R15, R21, R22). -/
structure Clock.Within (c : Clock) : Prop where
  loop : c.loop.Within
  fraction : c.fraction < 16777216
  eps : -(c.loop.epsMax : Int) ≤ c.eps ∧ c.eps ≤ c.loop.epsMax
  slew : -48 ≤ c.slew ∧ c.slew ≤ 48
  e1 : -2400 ≤ c.e1 ∧ c.e1 ≤ 2400
  e2 : -2400 ≤ c.e2 ∧ c.e2 ≤ 2400
  acquire : c.acquire ≤ 3
  acquiring : c.state = .acquiring → c.acquire ≤ 2
  silence : c.silence ≤ 256
  counting : c.state.counts = true → c.silence ≤ 255
  tally : -31 ≤ c.tally ∧ c.tally ≤ 31

/-- Sizes of a Cue Sequencer (R36, R41, R51, R63): at most 16 slots, at most four active cues a channel, and a
seek context only while SEEKING, with empty screens and at most four candidates a channel; no candidate before the
lookback is issued, and no cue index twice among the candidates and the entries still to be examined (R69, R70). -/
structure Sequencer.Bounded (q : Sequencer) : Prop where
  listCount : q.listCount ≤ 65535
  window : q.window.length ≤ 16
  active : ∀ c : Channel, q.active[c].length ≤ 4
  seeking : ∀ sk, q.seek = some sk → q.state = .seeking
  dark : ∀ sk, q.seek = some sk → ∀ c : Channel, q.active[c] = []
  candidates : ∀ sk, q.seek = some sk → ∀ c : Channel, (channelCandidates c sk.candidates).length ≤ 4
  unlooked : ∀ sk, q.seek = some sk → sk.lookback = none → sk.candidates = []
  distinct : ∀ sk items, q.seek = some sk → sk.lookback = some items →
    (sk.candidates.map Candidate.index ++ items.map SeekItem.index).Nodup

/-- How the Sequencer stands to its list and its show: the window is a run of consecutive cue indices beginning at
the cursor, and neither passes the list count (R41); the window is empty during a seek, and a FORWARD scan asks for
no entry past the list (R64, R68); of a show that is not RUNNING clock and Sequencer are at rest with the cursor at 0
(R33, R60); a CUES bind is under way only in HALTED (R157). -/
structure Auditorium.Follows (a : Auditorium) : Prop where
  window : a.seq.window.map Slot.index = (List.range (a.seq.cursor + a.seq.window.length)).drop a.seq.cursor
  cursor : a.seq.cursor + a.seq.window.length ≤ a.seq.listCount
  seeking : ∀ sk, a.seq.seek = some sk → a.seq.window = []
  scan : ∀ sk, a.seq.seek = some sk → sk.direction = .forward →
    a.seq.cursor + sk.batch.length ≤ a.seq.listCount
  rest : a.unit.showState ≠ .running → a.clock.state = .idle ∧ a.seq.state = .idle ∧ a.seq.cursor = 0
    ∧ a.seq.window = [] ∧ a.seq.seek = none
  counting : ∀ b tag tagReset, a.unit.batch = some b → b.phase = .counting tag tagReset →
    a.unit.showState = .halted
  claiming : ∀ b tag selector held tagReset, a.unit.batch = some b →
    b.phase = .claiming tag .cues selector held true tagReset → a.unit.showState = .halted

/-- A block as the mixer uses it: an even start tick and 1 to 240 samples (R76). -/
def Block.Usable (b : Block) : Prop := b.start.toNat % 2 = 0 ∧ 1 ≤ b.samples.length ∧ b.samples.length ≤ 240

/-- Sizes of an audio ring (R76, R78). -/
structure Ring.Bounded (r : Ring) : Prop where
  blocks : r.blocks.length ≤ 3
  usable : ∀ b ∈ r.blocks, ∀ blk, b.state = .held blk → blk.Usable

/-- Sizes of a Narration Mixer and ranges of its settings (R78, R91). -/
structure Mixer.Bounded (m : Mixer) : Prop where
  ringA : m.ringA.Bounded
  ringB : m.ringB.Bounded
  bed : m.bed.Bounded
  gainA : m.gainA ≤ 65535
  gainB : m.gainB ≤ 65535
  ducked : m.settings.gd.toNat ≤ m.settings.gb.toNat
  attack : 1 ≤ m.settings.attack.toNat
  release : 1 ≤ m.settings.release.toNat

/-- Ranges of the channel settings that the Builder works from (R161). -/
structure ChannelSettings.Within (c : ChannelSettings) : Prop where
  copies : c.copies ≤ 3
  refresh : 5 ≤ c.refresh ∧ c.refresh ≤ 250

/-- Sizes of an Air Builder, and at most one START entry for any cue (R97, R100, R101). -/
structure Builder.Bounded (b : Builder) : Prop where
  queue : b.queue.length ≤ 32
  records : b.records.length ≤ 16
  copies : ∀ e ∈ b.queue, 1 ≤ e.copies ∧ e.copies ≤ 4
  countdown : ∀ r ∈ b.records, r.countdown ≤ 250
  closing : b.closing ≤ 4
  starts : ((b.queue.filter fun e => e.kind == .start).map fun e => e.cue).Nodup

/-- How the Builder stands to the screens (R51, R101): no cue is on a channel twice, each cue on screen lies below the
cursor, and the screens are empty but in WALKING; each air record is the one record of a cue on its channel's screen;
of a show that is not RUNNING there is none. A lookback is under way in REENTRY alone, and what it holds and has chosen
lies below the cursor (R69, R71). A CLOSING show has a closing frame still to build (R113). -/
structure Auditorium.Carries (a : Auditorium) : Prop where
  distinct : ∀ c : Channel, (a.seq.active[c].map ActiveCue.cue).Nodup
  below : ∀ c : Channel, ∀ y ∈ a.seq.active[c], y.cue.index < a.seq.cursor
  walking : a.seq.state ≠ .walking → ∀ c : Channel, a.seq.active[c] = []
  records : (a.builder.records.map AirRecord.cue).Nodup
  onScreen : ∀ r ∈ a.builder.records, ∃ y ∈ a.seq.active[r.channel], y.cue = r.cue
  rest : a.unit.showState ≠ .running → a.builder.records = [] ∧ ∀ c : Channel, a.seq.active[c] = []
  looking : ∀ sk items, a.seq.seek = some sk → sk.lookback = some items → sk.phase = .reentry
    ∧ (∀ x ∈ items, x.index < a.seq.cursor) ∧ ∀ x ∈ sk.candidates, x.index < a.seq.cursor
  closing : a.unit.showState = .closing → 1 ≤ a.builder.closing

/-- A frame of auditorium `k` that keeps the payload limit (R99). -/
def AirFrame.Fits (k : Aud) (f : AirFrame) : Prop := f.auditorium = k ∧ f.payload ≤ 1536

/-- The slots, the counts and the marks of an Emitter Link agree (R116, R118, R126): the in-flight slot is empty
exactly in IDLE, a frame is pending only behind one in flight, a retry is due only in WAITING, and DOWN stands
exactly at 50 unanswered drops. -/
structure Link.Sound (l : Link) : Prop where
  idle : l.state = .idle ↔ l.frame = none
  next : l.frame = none → l.next = none
  retryDue : l.retryDue = true → l.state = .waiting
  unanswered : l.unanswered ≤ 50
  down : l.down = true ↔ l.unanswered = 50

/-- The frames a link holds keep the payload limit. -/
structure Link.Fits (k : Aud) (l : Link) : Prop where
  frame : ∀ f, l.frame = some f → f.Fits k
  next : ∀ f, l.next = some f → f.Fits k

/-- A tag state as R167 describes it: a range of 1 to 1024 indices, at most 8 untags, distinct and in range. -/
def TagState.Sound : TagState → Prop
  | .empty => True
  | .firstSet _ => True
  | .rangeSet first last untags =>
    first ≤ last ∧ last - first < 1024 ∧ untags.length ≤ 8 ∧ untags.Nodup
      ∧ ∀ i ∈ untags, first ≤ i ∧ i ≤ last

/-! ## Promises about the part -/

/-- What the part state promises (R181): with the part not RUNNING every show is DARK, with it STOPPED nothing is
in flight, in SCANNING only the scan is. -/
structure State.PartSound (s : State) : Prop where
  dark : s.partState ≠ .running → ∀ k, (s.aud k).unit.showState = .dark
  unbound : s.partState = .stopped ∨ s.partState = .stopping → s.bindings = []
  idle : s.partState = .stopped ∨ s.partState = .scanning → ∀ k, (s.aud k).link.state = .idle
  quiet : s.partState = .stopped → s.inFlight = []
  scanBindings : s.partState = .scanning → ∀ b ∈ s.bindings, b.role = .showRecord
  scanReads : s.partState = .scanning → ∀ a ∈ s.inFlight, a.aud = none
  owned : s.partState = .running → ∀ a ∈ s.inFlight, a.aud ≠ none

/-- The claim a batch waits for. -/
def Batch.claim (b : Batch) : Option (Role × Byte × Bool) :=
  match b.phase with
  | .claiming _ role selector held _ _ => some (role, selector, held)
  | _ => none

/-- What the binding map promises (R135, R132): no selector twice, no role of an auditorium twice, selectors 1
to 24 for the show records of auditoriums 0 to 23 alone, no binding of a DARK auditorium while the part is
RUNNING; and what the accesses and claims under way must keep for that. -/
structure State.MapSound (s : State) : Prop where
  exclusive : s.bindings.Pairwise fun a b => a.selector ≠ b.selector ∧ ¬(a.aud = b.aud ∧ a.role = b.role)
  showOwn : ∀ b ∈ s.bindings, b.role = .showRecord → b.selector = showSelector b.aud
  otherHigh : ∀ b ∈ s.bindings, b.role ≠ .showRecord → 24 < b.selector.toNat
  darkFree : s.partState = .running → ∀ b ∈ s.bindings, (s.aud b.aud).unit.showState ≠ .dark
  scanApart : (s.inFlight.filter fun a => a.purpose == .startScanRead).Pairwise fun a b => a.selector ≠ b.selector
  scanFree : ∀ a ∈ s.inFlight, a.purpose = .startScanRead → ∀ b ∈ s.bindings, b.selector ≠ a.selector
  checkOwn : ∀ a ∈ s.inFlight, a.purpose = .darkCheckRead → ∀ k, a.aud = some k → a.selector = showSelector k
  scanUnowned : ∀ a ∈ s.inFlight, a.purpose = .startScanRead → a.aud = none
  claims : ∀ k b role selector held, (s.aud k).unit.batch = some b → b.claim = some (role, selector, held) →
    role ≠ .showRecord ∧ 24 < selector.toNat ∧ (held = false → s.binding k role = none)
      ∧ (s.aud k).unit.showState ≠ .dark

/-- The two accesses touch a byte in common (R142), addresses modulo 2^64. -/
def Access.CommonByte (a b : Access) : Prop :=
  ∃ i j, i < a.length ∧ j < b.length ∧ a.address + BitVec.ofNat 64 i = b.address + BitVec.ofNat 64 j

/-! ## Reference readings of the longer rules, for the statements -/

/-- What the entries taken by a walk so far leave (R54 to R56): the screens, what was sent, and how many entries were
stale, were bad, and displaced a cue. -/
structure Taken where
  screens : Channel → List ActiveCue
  sent : List SeqOut
  stale : Nat
  bad : Nat
  crowded : Nat

/-- R54 to R56 for the entry of slot `x`, under the caption mask and the CUES bind epoch, at show time `now`. -/
def Taken.next (mask : BitVec 4) (epoch : Byte) (now : Word) (r : Taken) (x : Slot) : Taken :=
  match x.entry with
  | none => r
  | some e =>
    let c : Channel := Fin.ofNat 4 e.channel.toNat
    let screen := r.screens c
    let a : ActiveCue :=
      { cue := { epoch := epoch, index := x.index }, start := e.start, finish := e.finish, row := e.row
        style := e.style, text := x.text, reentered := false }
    if x.retracted then r
    else if x.bad then { r with bad := r.bad + 1 }
    else if mask.getLsbD c.val = false then r
    else if e.finish.toNat ≤ now.toNat then { r with stale := r.stale + 1 }
    else if e.kind = 2#8 then
      { r with
        screens := Function.update r.screens c []
        sent := r.sent ++ screen.map (fun y => .remove c y.cue .clearCue) ++ [.clear c] }
    else if 4 ≤ screen.length then
      { r with
        screens := Function.update r.screens c (screen.drop 1 ++ [a])
        sent := r.sent ++ (screen.take 1).map (fun y => .remove c y.cue .displaced)
          ++ [.start c a.cue false (decide (x.state = .loaded))]
        crowded := r.crowded + 1 }
    else
      { r with
        screens := Function.update r.screens c (screen ++ [a])
        sent := r.sent ++ [.start c a.cue false (decide (x.state = .loaded))] }

/-- What the lookback entries examined so far leave (R70): the stopped channels, the candidates, and the reports. -/
structure Chosen where
  stopped : List Channel
  candidates : List Candidate
  sent : List SeqOut

/-- R70 for the entry `e` of `index`, under the caption mask and the PAYLOAD binding's selector and byte limit, at
target `target`: the first case that applies. -/
def Chosen.next (mask : BitVec 4) (payload : Option (Byte × Word)) (target : Word) (r : Chosen) (index : Nat)
    (e : CueEntry) : Chosen :=
  let c : Channel := Fin.ofNat 4 e.channel.toNat
  let length := min e.payloadLength.toNat 192
  let mine := r.candidates.filter fun x => x.channel = c
  let newcomer : Candidate :=
    { index := index, channel := c, start := e.start, finish := e.finish, row := e.row, style := e.style
      payloadOffset := e.payloadOffset, textLength := length, truncated := decide (192 < e.payloadLength.toNat) }
  let least := fun x : Candidate => ∀ y ∈ mine, x.start.toNat < y.start.toNat
    ∨ (x.start.toNat = y.start.toNat ∧ x.index ≤ y.index)
  if e.retracted = true ∨ (e.kind ≠ 1#8 ∧ e.kind ≠ 2#8) ∨ 3 < e.channel.toNat ∨ e.finish.toNat ≤ e.start.toNat
    ∨ mask.getLsbD c.val = false ∨ c ∈ r.stopped then r
  else if e.kind = 2#8 then
    if e.start.toNat ≤ target.toNat then { r with stopped := c :: r.stopped } else r
  else if target.toNat < e.start.toNat ∨ e.finish.toNat ≤ target.toNat then r
  else if 4 ≤ mine.length ∧ ∃ x ∈ mine, least x ∧ e.start.toNat ≤ x.start.toNat then r
  else if length = 0 ∨ ∃ p ∈ payload, e.payloadOffset.toNat + length - 1 ≤ p.2.toNat then
    { r with
      candidates := r.candidates.filter (fun x => ¬(4 ≤ mine.length ∧ x ∈ mine ∧ least x)) ++ [newcomer] }
  else
    { r with
      sent := r.sent ++ payload.toList.map fun p =>
        .report (.regionFault .payload p.1 .limit e.payloadOffset.toNat) }

/-- The active cue record of a candidate under the CUES bind epoch (R71). -/
def Candidate.onScreen (epoch : Byte) (c : Candidate) : ActiveCue :=
  { cue := { epoch := epoch, index := c.index }, start := c.start, finish := c.finish, row := c.row
    style := c.style, text := if c.textLength = 0 then some [] else none, reentered := true }

/-- R59, R64: what emptying the screens sends under the caption mask. Channel by channel, a removal of each of its cues,
the oldest first, then a CLEAR where the channel is enabled. -/
def clearedScreens (mask : BitVec 4) (active : Vector (List ActiveCue) 4) : List SeqOut :=
  ([0, 1, 2, 3] : List Channel).flatMap fun c =>
    active[c].map (fun y => .remove c y.cue .screenClear) ++ (if mask.getLsbD c.val then [.clear c] else [])

/-- What the source samples of a ring read so far leave (R83 to R85): blocks, take count and condition, the samples, the
reports, and whether a filler sample was read in PLAYING or STARVED. -/
structure Heard where
  blocks : List RingBlock
  take : Word
  condition : RingCondition
  samples : List Sample
  reports : List Report
  short : Bool

/-- R83, first two cases: the block is passed over at position `x`. -/
def RingBlock.isPassed (x : Word) (b : RingBlock) : Bool :=
  match b.state with
  | .failed => true
  | .held blk => decide (blk.start.toNat + 2 * blk.samples.length ≤ x.toNat)
  | .reading => false

/-- R83 to R85 for the source sample at position `x`. A block still being read, or none, gives filler silence; a block
2 ticks or more ahead gap silence; any other its sample, and with its last sample it is taken, with the failed blocks
behind it (log entry 10). -/
def Heard.next (name : RingName) (h : Heard) (x : Word) : Heard :=
  let left := h.blocks.dropWhile (RingBlock.isPassed x)
  let take := h.take + BitVec.ofNat 32 (h.blocks.length - left.length)
  match left.map RingBlock.state with
  | .held blk :: _ =>
    if x.toNat + 2 ≤ blk.start.toNat then
      { h with blocks := left, take := take, samples := h.samples ++ [{ value := 0, active := false }] }
    else
      let i := (x.toNat - blk.start.toNat) / 2
      let ended := i + 1 = blk.samples.length
      let behind := (left.drop 1).dropWhile fun b => decide (b.state = .failed)
      { blocks := if ended then behind else left
        take := if ended then take + BitVec.ofNat 32 (left.length - behind.length) else take
        condition := if ended ∧ blk.last = true then .resting else .playing
        samples := h.samples ++ [{ value := blk.samples.getD i 0, active := !blk.silent }]
        reports := h.reports ++ (if h.condition = .starved then [.narrationResumed name] else [])
        short := h.short }
  | _ =>
    { blocks := left, take := take
      condition := if h.condition = .playing then .starved else h.condition
      samples := h.samples ++ [{ value := 0, active := false }]
      reports := h.reports ++ (if h.condition = .playing then [.narrationUnderrun name take] else [])
      short := h.short || decide (h.condition ≠ .resting) }

/-- R80: the mixer plays under the boundary record. -/
def BoundaryRecord.plays (rec : BoundaryRecord) : Bool := decide (rec.state = .locked ∨ rec.state = .flywheel)

/-- R80: the rings a frame uses under the narration mask. -/
def Mixer.uses (m : Mixer) (mask : BitVec 2) : RingName → Bool
  | .a => mask.getLsbD 0 && m.ringA.bound
  | .b => mask.getLsbD 1 && m.ringB.bound
  | .bed => (mask.getLsbD 0 || mask.getLsbD 1) && m.bed.bound

/-- R80: a ring's part in a frame, with its 240 samples and its reports: it plays, or it stays and gives silence. -/
def Mixer.given (m : Mixer) (mask : BitVec 2) (rec : BoundaryRecord) (name : RingName) :
    Ring × List Sample × List Report :=
  if rec.plays && m.uses mask name then (m.ring name).play name rec.showTime
  else (m.ring name, List.replicate 240 { value := 0, active := false }, [])

/-- R80, R87 to R89: what a frame makes of narration channel A, or B where `v` is set: the bed gain after it, the 240
output samples, and how many were limited. A muted or disabled channel stays and gives silence. -/
def Mixer.voice (m : Mixer) (mask : BitVec 2) (rec : BoundaryRecord) (v : Bool) : Nat × List Half × Nat :=
  let gain := if v then m.gainB else m.gainA
  if rec.plays && mask.getLsbD v.toNat then
    mixRun m.settings (m.given mask rec (if v then .b else .a)).2.1 (m.given mask rec .bed).2.1 gain
  else (gain, List.replicate 240 0, 0)

/-- R80, R90, R99: one narration section for each enabled channel, A before B, SILENT where every sample is 0. -/
def Mixer.voices (m : Mixer) (mask : BitVec 2) (rec : BoundaryRecord) : List AirSection :=
  ([false, true].filter fun v => mask.getLsbD v.toNat).map fun v =>
    .narration v ((m.voice mask rec v).2.1.all (· == 0)) (m.voice mask rec v).2.1

/-- R80 to R90: the mixer as a frame leaves it. -/
def Mixer.afterFrame (m : Mixer) (mask : BitVec 2) (rec : BoundaryRecord) : Mixer :=
  { m with
    ringA := (m.given mask rec .a).1, ringB := (m.given mask rec .b).1, bed := (m.given mask rec .bed).1
    gainA := (m.voice mask rec false).1, gainB := (m.voice mask rec true).1
    clippedA := m.clippedA + BitVec.ofNat 32 (m.voice mask rec false).2.2
    clippedB := m.clippedB + BitVec.ofNat 32 (m.voice mask rec true).2.2 }

/-- R85: the reports of a frame. Their order among the rings is the model's choice (log entry 12). -/
def Mixer.frameReports (m : Mixer) (mask : BitVec 2) (rec : BoundaryRecord) : List Report :=
  [RingName.a, .b, .bed].flatMap fun name => (m.given mask rec name).2.2

/-- R79: the numbers of the blocks a used ring asks for, in order. -/
def Ring.ahead (r : Ring) : List Word :=
  ((List.range (min 3 r.holds)).drop r.blocks.length).map fun i => r.take + BitVec.ofNat 32 i

/-- The START section of `cue` in a frame of show time `now` (R108); none for a cue that is not on screen. -/
def sectionOfStart (screen : List ActiveCue) (channel : Channel) (cue : CueId) (refresh reentered : Bool)
    (now : Word) : Option AirSection :=
  (screen.find? fun a => a.cue = cue).map fun a =>
    .start channel cue refresh reentered
      (if now.toNat < a.finish.toNat then min ((a.finish.toNat - now.toNat + 479) / 480) 65535 else 1)
      a.row a.style (a.text.getD [])

/-- The section of a queue entry of auditorium `a` in a frame of show time `now` (R105, R108, R109); a START whose cue
has left the screen has none (log entry 24). -/
def sectionOfEntry (a : Auditorium) (now : Word) (e : QueueEntry) : Option AirSection :=
  match e.kind, e.cue with
  | .clear, _ => some (.clear e.channel)
  | .finish, some cue => some (.finish e.channel cue)
  | .start, some cue =>
    (a.builder.records.find? fun r => r.cue = cue).bind fun r =>
      sectionOfStart a.seq.active[e.channel] e.channel cue false r.reentered now
  | _, none => none

/-! ## What a command leaves alone -/

/-- Everything but the accesses in flight, the tag counter and auditorium `k`'s blocks is as before, and the
accesses in flight have only been added to. -/
structure State.OnlyAud (k : Aud) (s t : State) : Prop where
  pending : t.pending = s.pending
  partState : t.partState = s.partState
  noticeEn : t.noticeEn = s.noticeEn
  notice : t.notice = s.notice
  houseFault : t.houseFault = s.houseFault
  tableBaseLo : t.tableBaseLo = s.tableBaseLo
  tableBaseHi : t.tableBaseHi = s.tableBaseHi
  tableCount : t.tableCount = s.tableCount
  houseTime : t.houseTime = s.houseTime
  framePhase : t.framePhase = s.framePhase
  latchedBase : t.latchedBase = s.latchedBase
  latchedCount : t.latchedCount = s.latchedCount
  bindings : t.bindings = s.bindings
  messages : t.messages = s.messages
  readValue : t.readValue = s.readValue
  inFlight : ∃ added, t.inFlight = s.inFlight ++ added
  others : ∀ j, j ≠ k → t.aud j = s.aud j

/-! ## When a command stands -/

/-- The directive `c` stands in auditorium `k`: the part is RUNNING, the show is not DARK and holds its show
record, and its batch `b` has come to a slot that spells `c` (R152, R153). -/
structure State.Standing (s : State) (k : Aud) (c : Instr) (b : Batch) : Prop where
  running : s.partState = .running
  lit : (s.aud k).unit.showState ≠ .dark
  batch : (s.aud k).unit.batch = some b
  taking : b.phase = .taking
  within : b.next < 8
  slot : slotCommand k (b.slots.getD b.next []) = some c
  record : ∃ x, s.binding k .showRecord = some x ∧ 511 ≤ x.limit.toNat

/-- The only access in flight under `tag` is `a`. -/
structure State.InFlightAs (s : State) (tag : Nat) (a : Access) : Prop where
  member : a ∈ s.inFlight
  tagged : a.tag = tag
  only : ∀ x ∈ s.inFlight, x.tag = tag → x = a

/-- The turn of the write `a` has come (R142): no access issued before it to a byte in common is in flight, and the host
has not signalled an error for it before. -/
def State.InTurn (s : State) (a : Access) : Prop :=
  (∀ y ∈ s.inFlight, y.tag < a.tag → ¬y.CommonByte a) ∧ a.answer ≠ some false

/-- The command `c` ends the access `a` in flight, `failed` where in a memory error (R143): the completion of its sort,
the end of a write whose turn has come (R142), as the host signalled it first, or the give-up of a read that has waited
192 house ticks. -/
def State.Ends (s : State) (a : Access) (c : Instr) (failed : Bool) : Prop :=
  let read := fun (tag : Nat) (r : Completion) (mine : Prop) => tag = a.tag ∧ mine ∧ failed = (r == .error)
  let write := fun (tag : Nat) (ok : Bool) (mine : List Purpose) => tag = a.tag ∧ a.purpose ∈ mine
    ∧ failed = !(a.answer.getD ok) ∧ ∀ y ∈ s.inFlight, y.tag < a.tag → ¬y.CommonByte a
  match c with
  | .entryReadComplete tag r => read tag r (∃ gen index, a.purpose = .entryRead gen index)
  | .textReadComplete tag r => read tag r (∃ gen cue, a.purpose = .textRead gen cue)
  | .scanReadComplete tag r => read tag r (∃ gen index, a.purpose = .scanRead gen index)
  | .lookbackReadComplete tag r => read tag r (∃ gen index, a.purpose = .lookbackRead gen index)
  | .blockReadComplete tag r => read tag r (∃ name gen number, a.purpose = .blockRead name gen number)
  | .descriptorReadComplete tag r => read tag r (a.purpose ∈ [.claimRead, .startScanRead, .darkCheckRead])
  | .cueListHeaderReadComplete tag r => read tag r (a.purpose = .headerRead)
  | .headReadComplete tag r => read tag r (a.purpose = .headRead)
  | .slotReadComplete tag r => read tag r (a.purpose = .slotRead)
  | .readGiveUp tag => tag = a.tag ∧ a.data = [] ∧ 192 ≤ (s.houseTime - a.issued).toNat ∧ failed = true
  | .writeComplete tag ok => write tag ok [.resultWrite, .snapshotWrite, .flagWrite, .bindingWrite, .startScanWrite]
  | .ackWriteComplete tag ok => write tag ok [.ackWrite]
  | .reportEntryWriteComplete tag ok => write tag ok [.reportWrite]
  | _ => False

/-- The access but for the bytes of the write `tag` that it must see: a write that fails is seen by no read (R142; log
entry 7). -/
def Access.unseeing (tag : Nat) (a : Access) : Access :=
  { a with forwards := a.forwards.filter fun f => f.writer != tag }

/-- R130: what a link `held` becomes at a part stop, and that of an auditorium that becomes DARK (R148). The pending
frame is discarded and counted. A link whose CALL is sent, or that is SENDING or awaits a verdict, goes on to finish its
frame; one that is WAITING, or has no CALL outstanding (the model's reading, log entry 14), is IDLE at once, its slots
empty and its attempt FIRST, a frame not sent or due a retry counted as dropped. -/
def Link.FinishesAs (held link : Link) : Prop :=
  let dropped := held.dropped + (if held.next = none then 0 else 1)
  let rested := { held with
    state := .idle, frame := none, next := none, retry := false, retryDue := false, called := false, sent := 0
    shutDue := false, finishing := false }
  (held.state = .idle → link = { held with next := none, dropped := dropped })
    ∧ ((held.state = .calling ∧ held.called = true) ∨ held.state = .sending ∨ held.state = .awaitingVerdict →
      link = { held with next := none, dropped := dropped, finishing := true })
    ∧ ((held.state = .calling ∧ held.called = false) ∨ (held.state = .waiting ∧ held.retryDue = true) →
      link = { rested with dropped := dropped + 1 })
    ∧ (held.state = .waiting → held.retryDue = false → link = { rested with dropped := dropped })

/-- A read or write of auditorium `k` under `role` was issued between `s` and `t`, through the binding `s` holds,
at `offset`, for `purpose`. -/
def State.Issued (s t : State) (k : Aud) (role : Role) (offset length : Nat) (data : List Byte)
    (purpose : Purpose) : Prop :=
  ∃ x, s.binding k role = some x ∧ ∃ a ∈ t.inFlight, s.nextTag ≤ a.tag ∧ a.issued = s.houseTime
    ∧ a.aud = some k ∧ a.role = role ∧ a.selector = x.selector ∧ a.epoch = x.epoch ∧ a.offset = offset
    ∧ a.address = x.base + BitVec.ofNat 64 offset ∧ a.length = length ∧ a.data = data ∧ a.purpose = purpose

/-- The result write of slot `n` was issued between `s` and `t`: the result byte, then the 16-byte reply, at
offset 64 + 32·n + 15 of the show record (R153, R192). -/
def State.ResultIssued (s t : State) (k : Aud) (n : Nat) (conditions : Byte) (reply : List Byte) : Prop :=
  s.Issued t k .showRecord (64 + 32 * n + 15) 17 (conditions :: reply) .resultWrite

/-- Of the accesses issued between `s` and `t` those through CUES are the reads of the entries `indices`, in this order,
each for its `purpose` (R36, R140). -/
def State.EntriesRead (s t : State) (k : Aud) (purpose : Nat → Purpose) (indices : List Nat) : Prop :=
  ((t.inFlight.drop s.inFlight.length).filter fun a => a.role == .cues).map
      (fun a => (a.offset, a.length, a.data, a.purpose)) = indices.map (fun i => (32 + 32 * i, 32, [], purpose i))
    ∧ ∀ i ∈ indices, s.Issued t k .cues (32 + 32 * i) 32 [] (purpose i)

/-- R153, R154: the batch `b` goes on from the slot it has come to, between `s` and `t`. It waits for the writes made;
the next slot is taken, or, where that is NONE or there is none, the batch ends and result 0 is written into that slot
and every one after it. -/
def State.GoesOn (s t : State) (k : Aud) (b : Batch) : Prop :=
  let next := b.next + 1
  let ends := 8 ≤ next ∨ byteAt (b.slots.getD next []) 0 = 0#8
  let made := t.inFlight.drop s.inFlight.length
  (t.aud k).unit.batch = some { b with
      next := next
      phase := if ends then .ending else .taking
      outstanding := b.outstanding
        ++ (made.filter fun a => [Purpose.resultWrite, .flagWrite, .bindingWrite].contains a.purpose).map Access.tag }
    ∧ ((made.filter fun a => a.purpose == .resultWrite && a.length == 1).map Access.offset).Perm
        ((if ends then (List.range 8).drop next else []).map fun n => 64 + 32 * n + 15)
    ∧ (ends → ∀ n, next ≤ n → n < 8 → s.Issued t k .showRecord (64 + 32 * n + 15) 1 [0] .resultWrite)

/-- A read or write of the region table at `within` of entry `selector` was issued between `s` and `t`. -/
def State.TableIssued (s t : State) (aud : Option Aud) (role : Role) (selector : Byte) (within length : Nat)
    (data : List Byte) (purpose : Purpose) : Prop :=
  ∃ a ∈ t.inFlight, s.nextTag ≤ a.tag ∧ a.issued = s.houseTime ∧ a.aud = aud ∧ a.role = role
    ∧ a.selector = selector ∧ a.address = s.latchedBase + BitVec.ofNat 64 (16 * selector.toNat + within)
    ∧ a.length = length ∧ a.data = data ∧ a.purpose = purpose

end Sys2Proof.Machine
end

