-- ==== Sys2Proof/Certificates/Slice0/Obligations.lean ====
section
/-! DEFINITION. The statements for the provers. -/

open Sys2Proof Sys2Proof.Machine

/-! ## The step -/

/-- The step runs the command at the front of the queue, with the rest of the queue behind it. -/
def Obligations.StepTakesTheFrontCommand : Prop :=
  ∀ (c : Instr) (rest : List Instr) (s : State),
    step { s with pending := c :: rest } = exec c { s with pending := rest }

/-- The model's choice (log entry 2): with no command waiting the work of the tick is posted, and where there is none
one house tick passes: house time and frame phase advance (R13), and each auditorium whose boundary or build point has
come is marked. The work is: the end of each write whose answer is kept and whose turn has come (R142), the give-up of
each read issued 192 house ticks ago or more (R143), the gap expiry of each receiver that is ASSEMBLING 97 ticks or more
after its latest byte (R4), the boundary of each auditorium where it is due (R14), with the free value of R61 (log entry
4), each build point that is due (R98), and the directive of the slot that a batch has come to, of a RUNNING part and a
show that is not DARK (R152, R153). Nothing else is posted. That they are posted in this order, by rising tag or
auditorium, is the model's choice (log entry 3). -/
def Obligations.IdleStepPostsWorkOrPassesATick : Prop :=
  (∀ s : State, s.pending = [] →
    (s.work ≠ [] → step s = .next { s with pending := s.work }) ∧
    (s.work = [] → ∃ t, step s = .next t ∧ t.pending = [] ∧ t.houseTime = s.houseTime + 1
      ∧ t.framePhase.val = (s.framePhase.val + 1) % 480 ∧ t.partState = s.partState
      ∧ t.inFlight = s.inFlight ∧ t.bindings = s.bindings ∧ t.notice = s.notice ∧ t.houseFault = s.houseFault
      ∧ ∀ k, t.aud k = { s.aud k with
          boundaryDue := (s.aud k).boundaryDue || t.framePhase.val == 20 * k.val
          buildDue := (s.aud k).buildDue || t.framePhase.val == (20 * k.val + 240) % 480 })) ∧
  (∀ s : State, ∃ comes : Access → Bool,
    (∀ a ∈ s.inFlight, comes a = true ↔
      a.answer ≠ none ∧ ∀ y ∈ s.inFlight, y.tag < a.tag → ¬y.CommonByte a) ∧
    let overdue := fun a : Access => decide (a.data = [] ∧ 192 ≤ (s.houseTime - a.issued).toNat)
    let gap := fun k : Aud => decide ((s.aud k).receiver.state = .assembling
      ∧ ∃ t0 ∈ (s.aud k).receiver.latestTick, 97 ≤ (s.houseTime - t0).toNat)
    let directive := fun k : Aud =>
      if s.partState = .running ∧ (s.aud k).unit.showState ≠ .dark then
        ((s.aud k).unit.batch.filter fun b => decide (b.phase = .taking)).bind fun b =>
          slotCommand k (b.slots.getD b.next [])
      else none
    s.work
      = (s.inFlight.filter comes).map (fun a => match a.purpose with
          | .ackWrite => .ackWriteComplete a.tag (a.answer.getD true)
          | .reportWrite => .reportEntryWriteComplete a.tag (a.answer.getD true)
          | _ => .writeComplete a.tag (a.answer.getD true))
        ++ (s.inFlight.filter overdue).map (fun a => .readGiveUp a.tag)
        ++ ((List.finRange 24).filter gap).map .byteGapExpiry
        ++ ((List.finRange 24).filter fun k => (s.aud k).boundaryDue).map
            (fun k => .frameBoundary k (Config.snapshotFirst s.houseTime k))
        ++ ((List.finRange 24).filter fun k => (s.aud k).buildDue).map .buildPoint
        ++ (List.finRange 24).filterMap directive)

/-- No command stops the part: every command answers a next state in every state (log entry 31), and its meaning
leaves the queue of waiting commands as it finds it. -/
def Obligations.EveryCommandAnswersAndLeavesTheQueue : Prop :=
  ∀ (c : Instr) (s : State), ∃ t, exec c s = .next t ∧ t.pending = s.pending

/-! ## Power-on, reset and registers -/

/-- POWER_ON (R186, R192): STOPPED, the registers of the window at their power-on values, every block at rest. A start
requested straight after it, with the table registers not written, is refused and sets HOUSE_FAULT. -/
def Obligations.PowerOnLeavesThePartAtRest : Prop :=
  ∀ s : State, ∃ t, exec .powerOn s = .next t ∧ t.partState = .stopped
    ∧ t.readWindow 0x00#8 = some 0x47240101#32 ∧ t.readWindow 0x04#8 = some 0 ∧ t.readWindow 0x08#8 = some 0
    ∧ t.readWindow 0x0C#8 = some 0 ∧ t.readWindow 0x10#8 = some 0 ∧ t.readWindow 0x14#8 = some 0
    ∧ t.readWindow 0x18#8 = some 0 ∧ t.bindings = [] ∧ t.inFlight = [] ∧ t.framePhase = 0
    ∧ (∀ k, (t.aud k).unit.showState = .dark ∧ (t.aud k).clock.state = .idle ∧ (t.aud k).seq.state = .idle
        ∧ (t.aud k).link.state = .idle ∧ (t.aud k).receiver.state = .hunting ∧ (t.aud k).builder.queue = []
        ∧ (t.aud k).mixer.ringA.resync = true ∧ (t.aud k).clock.loop.c0 = 320
        ∧ (t.aud k).clock.loop.epsMax = 8388 ∧ (t.aud k).clock.loop.holdover = 50
        ∧ (t.aud k).unit.channels.captions = 15 ∧ (t.aud k).unit.channels.refresh = 100
        ∧ (t.aud k).unit.channels.address.toNat = k.val)
    ∧ ∃ u, exec .partStart t = .next u ∧ u.partState = .stopped ∧ u.houseFault = true ∧ u.inFlight = []

/-- SOFT_RESET (R185): as after power-on but for the table registers, in every part state, with the latches
cleared, no message sent and no access kept. -/
def Obligations.SoftResetKeepsOnlyTheTableRegisters : Prop :=
  ∀ s : State, ∃ t, exec .softReset s = .next t ∧ t.partState = .stopped ∧ t.noticeEn = false
    ∧ t.notice = false ∧ t.houseFault = false ∧ t.messages = s.messages ∧ t.houseTime = 0 ∧ t.framePhase = 0
    ∧ t.tableBaseLo = s.tableBaseLo ∧ t.tableBaseHi = s.tableBaseHi ∧ t.tableCount = s.tableCount
    ∧ t.latchedBase = 0 ∧ t.latchedCount = 0 ∧ t.bindings = [] ∧ t.inFlight = []
    ∧ ∀ k, t.aud k = State.reset.aud k

/-- STATUS_READ (R179, R192): the value holds NOTICE in bit 0, HOUSE_FAULT in bit 1 and the part state in bits 9
to 8; both latches are cleared and nothing else changes. NOTICE_EN (R178, R180): the setting is stored, and a
change from 0 to 1 while NOTICE is set sends one message. -/
def Obligations.StatusReadAndNoticeEnableServeTheLatches : Prop :=
  (∀ s : State, ∃ v, exec .statusRead s = .next { s with readValue := v, notice := false, houseFault := false }
    ∧ v.getLsbD 0 = s.notice ∧ v.getLsbD 1 = s.houseFault
    ∧ v.toNat / 256 = (match s.partState with | .stopped => 0 | .scanning => 1 | .running => 2 | .stopping => 3)
    ∧ v.toNat % 256 < 4) ∧
  (∀ (v : Bool) (s : State), exec (.noticeEn v) s = .next { s with
    noticeEn := v
    messages := s.messages + (if v = true ∧ s.noticeEn = false ∧ s.notice = true then 1 else 0) })

/-- REGISTER_WRITE at an offset of the register window (R177, R178, R192): the table registers at 0x10, 0x14 and 0x18
store; IDENT at 0x00, STATUS at 0x08 and HOUSE_TIME at 0x0C ignore; CONTROL at 0x04 with RESET at 1 is a soft reset
alone, and otherwise NOTICE_EN and RUN both take effect. The model's choices: NOTICE_EN is taken first (log entry 16),
and a write where no register lies changes nothing (log entry 35). -/
def Obligations.RegisterWritesStoreIgnoreOrCommand : Prop :=
  ∀ (v : Word) (s : State),
    exec (.registerWrite 0x00#8 v) s = .next s ∧ exec (.registerWrite 0x08#8 v) s = .next s
    ∧ exec (.registerWrite 0x0C#8 v) s = .next s
    ∧ exec (.registerWrite 0x10#8 v) s = .next { s with tableBaseLo := v }
    ∧ exec (.registerWrite 0x14#8 v) s = .next { s with tableBaseHi := v }
    ∧ exec (.registerWrite 0x18#8 v) s = .next { s with tableCount := v }
    ∧ (v.getLsbD 2 = true → exec (.registerWrite 0x04#8 v) s = exec .softReset s)
    ∧ (v.getLsbD 2 = false → ∃ t, exec (.noticeEn (v.getLsbD 1)) s = .next t
        ∧ exec (.registerWrite 0x04#8 v) s = exec (if v.getLsbD 0 then .partStart else .partStop) t)
    ∧ (∀ o : Byte, o ∉ [0x00#8, 0x04#8, 0x08#8, 0x0C#8, 0x10#8, 0x14#8, 0x18#8] →
        exec (.registerWrite o v) s = .next s)

/-! ## Start and stop -/

/-- PART_START (R182, R145): a start whose table registers pass latches them, enters SCANNING with clocks, Sequencers
and links at rest, and reads every descriptor from 1 to count - 1, all reads issued at once (log entry 15). One whose
table registers fail sets HOUSE_FAULT and NOTICE and changes nothing else; in any other part state nothing happens. -/
def Obligations.StartEntersScanningAndReadsTheTable : Prop :=
  ∀ s : State,
    (s.partState ≠ .stopped → exec .partStart s = .next s) ∧
    (s.partState = .stopped →
      ((s.tableBaseHi ++ s.tableBaseLo).toNat % 64 ≠ 0 ∨ s.tableCount.toNat < 25 ∨ 256 < s.tableCount.toNat) →
      exec .partStart s = .next { s with
        houseFault := true, notice := true
        messages := s.messages + (if s.notice = false ∧ s.noticeEn = true then 1 else 0) }) ∧
    (s.partState = .stopped → (s.tableBaseHi ++ s.tableBaseLo).toNat % 64 = 0 →
    25 ≤ s.tableCount.toNat → s.tableCount.toNat ≤ 256 →
    ∃ t, exec .partStart s = .next t ∧ t.partState = .scanning
      ∧ t.latchedBase = s.tableBaseHi ++ s.tableBaseLo ∧ t.latchedCount = s.tableCount
      ∧ t.notice = s.notice ∧ t.houseFault = s.houseFault ∧ t.houseTime = s.houseTime
      ∧ t.inFlight.length = s.inFlight.length + (s.tableCount.toNat - 1)
      ∧ (∀ n, 1 ≤ n → n < s.tableCount.toNat → ∃ a ∈ t.inFlight, s.nextTag ≤ a.tag ∧ a.aud = none
          ∧ a.purpose = .startScanRead ∧ a.selector.toNat = n ∧ a.length = 16
          ∧ a.address = t.latchedBase + BitVec.ofNat 64 (16 * n))
      ∧ ∀ k, (t.aud k).clock.state = .idle ∧ (t.aud k).clock.showTime = 0
          ∧ (t.aud k).clock.seats = (s.aud k).clock.seats ∧ (t.aud k).receiver.lastSequence = none
          ∧ (t.aud k).seq.state = .idle ∧ (t.aud k).seq.listCount = 0 ∧ (t.aud k).mixer.ringA.take = 0
          ∧ (t.aud k).builder.sequence = 0 ∧ (t.aud k).link.state = .idle ∧ (t.aud k).link.frame = none
          ∧ (t.aud k).link.unanswered = 0 ∧ (t.aud k).writer.bound = false
          ∧ (t.aud k).epochs = (s.aud k).epochs
          ∧ (t.aud k).unit.showState = (s.aud k).unit.showState)

/-- PART_STOP (R130, R178, R183, R184): from RUNNING every show becomes DARK, the map is emptied, and clocks, receivers,
Sequencers, rings, Builders and report rings come to rest. Every link discards and counts its pending frame and finishes
or abandons the one in flight, as `Link.FinishesAs` says (the model's reading of a link with no CALL outstanding, log
entry 14). The part is STOPPED where no access is in flight and every link is IDLE, else STOPPING. From SCANNING the map
is emptied. In STOPPED and STOPPING nothing happens.
In STOPPING the end of an access, a completion or a memory error, a give-up among them, and of a write in its turn,
takes it out of what is in flight. With the last of them, and every link IDLE, the part is STOPPED; else it stays
STOPPING. There is no latch, no message and no report, and no auditorium changes (R143, R184). -/
def Obligations.StopMakesEveryShowDark : Prop :=
  (∀ s : State,
    (s.partState = .running → ∃ t, exec .partStop s = .next t ∧ t.bindings = [] ∧ t.inFlight = s.inFlight
      ∧ t.notice = s.notice ∧ t.houseFault = s.houseFault ∧ t.houseTime = s.houseTime
      ∧ t.partState = (if s.inFlight = [] ∧ ∀ k, (t.aud k).link.state = .idle then .stopped else .stopping)
      ∧ ∀ k, (t.aud k).unit.showState = .dark ∧ (t.aud k).unit.batch = none ∧ (t.aud k).unit.tag = .empty
          ∧ (t.aud k).unit.channels = (s.aud k).unit.channels ∧ (t.aud k).clock.state = .idle
          ∧ (t.aud k).clock.seats = (s.aud k).clock.seats ∧ (t.aud k).seq.state = .idle
          ∧ (t.aud k).seq.cursor = 0 ∧ (t.aud k).seq.listCount = 0 ∧ (t.aud k).mixer.ringA.bound = false
          ∧ (t.aud k).mixer.ringB.bound = false ∧ (t.aud k).mixer.bed.bound = false
          ∧ (t.aud k).builder.queue = [] ∧ (t.aud k).builder.records = [] ∧ (t.aud k).builder.closing = 0
          ∧ (t.aud k).receiver.state = .hunting ∧ (t.aud k).receiver.buffer = []
          ∧ (t.aud k).receiver.badReports = (s.aud k).receiver.badReports
          ∧ (t.aud k).writer.bound = false ∧ (t.aud k).writer.missed = (s.aud k).writer.missed
          ∧ (s.aud k).link.FinishesAs (t.aud k).link) ∧
    (s.partState = .scanning → ∃ t, exec .partStop s = .next t ∧ t.bindings = [] ∧ t.inFlight = s.inFlight
      ∧ t.houseFault = s.houseFault ∧ (t.partState = .stopping ∨ t.partState = .stopped)) ∧
    (s.partState = .stopped ∨ s.partState = .stopping → exec .partStop s = .next s)) ∧
  (∀ (tag : Nat) (a : Access) (c : Instr) (failed : Bool) (s : State), s.partState = .stopping →
    s.InFlightAs tag a → s.Ends a c failed →
    let rest := s.inFlight.filter fun y => y.tag != tag
    ∃ t, exec c s = .next t
      ∧ t = { s with
          inFlight := t.inFlight
          partState := if rest = [] ∧ ∀ k, (s.aud k).link.state = .idle then .stopped else .stopping }
      ∧ t.inFlight.map (Access.unseeing tag) = rest.map (Access.unseeing tag)
      ∧ (failed = false → t.inFlight = rest))

/-! ## Timecode -/

/-- TIMECODE_BYTE_ARRIVAL (R1 to R3): a part that is not RUNNING discards every byte. In HUNTING the sync byte
begins a message with its arrival tick and any other byte is discarded; in ASSEMBLING a byte in time that is not
the tenth joins the buffer. -/
def Obligations.BytesAreHuntedOrAssembled : Prop :=
  ∀ (k : Aud) (b : Byte) (s : State),
    (s.partState ≠ .running → exec (.timecodeByteArrival k b) s = .next s) ∧
    (s.partState = .running → (s.aud k).receiver.state = .hunting →
      ∃ t, exec (.timecodeByteArrival k b) s = .next t ∧ State.OnlyAud k s t ∧ t.inFlight = s.inFlight
        ∧ t.aud k = { s.aud k with
            receiver := if b = 0xA5#8 then { (s.aud k).receiver with
                state := .assembling, buffer := [0xA5#8], firstTick := some s.houseTime
                latestTick := some s.houseTime }
              else (s.aud k).receiver }) ∧
    (∀ t0, s.partState = .running → (s.aud k).receiver.state = .assembling →
      (s.aud k).receiver.latestTick = some t0 → (s.houseTime - t0).toNat ≤ 96 →
      (s.aud k).receiver.buffer.length < 9 →
      ∃ t, exec (.timecodeByteArrival k b) s = .next t ∧ State.OnlyAud k s t ∧ t.inFlight = s.inFlight
        ∧ t.aud k = { s.aud k with receiver := { (s.aud k).receiver with
            buffer := (s.aud k).receiver.buffer ++ [b], latestTick := some s.houseTime } })

/-- The tenth byte of a valid message (R3, R5 to R9, R17, R23 to R31), its hours, minutes, seconds and frame in BCD:
the receiver accepts it and the clock hears its position plus trim, floored at 0, as of the arrival of the first byte.
An IDLE clock drops it; every other sets its silence count to 0. SEARCHING and LOST clocks are seated by PLAY and
PAUSE. In the other states a PLAY or PAUSE beyond the threshold (240 in ACQUIRING, 2400 in LOCKED, FLYWHEEL and for a
PLAY in PAUSED, 240 for a PAUSE in PAUSED) seats; a PLAY within it steers, the third agreement and a FLYWHEEL clock
entering LOCKED, and resumes a PAUSED clock; a PAUSE within it freezes. STOP leads to SEARCHING, with a clear order
where the clock ran or was PAUSED. A seat and a clear order reach Sequencer, Mixer and Builder; nothing else does. The
Builder hears its own signal, and then the requests of a Sequencer that empties its screens: SCREEN_CLEAR removals and a
CLEAR for each enabled channel. That it hears them in this order is the model's reading (log entry 5). -/
def Obligations.ValidMessageMovesTheClock : Prop :=
  ∀ (k : Aud) (code hours minutes seconds frame rate : Nat) (doing spare sequence check : Byte) (t0 first : Word)
    (s : State), (code, rate) ∈ [(0, 24), (1, 25), (2, 30), (3, 48), (4, 50), (5, 60)] → hours ≤ 23 →
    minutes ≤ 59 → seconds ≤ 59 → frame < rate → doing ∈ [1#8, 2#8, 3#8] → s.partState = .running →
    (s.aud k).receiver.state = .assembling → (s.aud k).receiver.latestTick = some t0 →
    (s.houseTime - t0).toNat ≤ 96 → (s.aud k).receiver.firstTick = some first →
    (s.aud k).receiver.lastSequence ≠ some sequence →
    (let bcdOf := fun n : Nat => BitVec.ofNat 8 (16 * (n / 10) + n % 10)
     let body := [doing, BitVec.ofNat 8 code, bcdOf hours, bcdOf minutes, bcdOf seconds, bcdOf frame, spare,
       sequence]
     (s.aud k).receiver.buffer = 0xA5#8 :: body ∧ ((body ++ [check]).map BitVec.toNat).sum % 256 = 0) →
    -4800 ≤ (s.aud k).clock.loop.trim → (s.aud k).clock.loop.trim ≤ 4800 →
    let c := (s.aud k).clock
    let heard := { c with silence := 0 }
    let position : Int := max 0
      ((((hours * 60 + minutes) * 60 + seconds) * rate + frame) * (48000 / rate) + c.loop.trim)
    let shown : Word := BitVec.ofInt 32 position
    let running := c.state = .acquiring ∨ c.state = .locked ∨ c.state = .flywheel
    let predicted : Int :=
      c.showTime.toNat + (if c.state = .paused then 0 else (first - c.anchor).toInt + c.slew)
    let error : Int := position - predicted
    let near := error.natAbs ≤ (if c.state = .acquiring then 240 else 2400)
    let steered := (heard.steer error).1
    let offSpeed := (heard.steer error).2
    ∃ t, exec (.timecodeByteArrival k check) s = .next t ∧ State.OnlyAud k s t
      ∧ (t.aud k).receiver = { (s.aud k).receiver with
          state := .hunting, buffer := [], firstTick := none, latestTick := none
          lastSequence := some sequence }
      ∧ (t.aud k).link = (s.aud k).link ∧ (t.aud k).unit = (s.aud k).unit ∧ (t.aud k).epochs = (s.aud k).epochs
      ∧ (let clock := (t.aud k).clock
         let reported := fun l : List Report =>
           (t.aud k).writer = ((s.reportAll k l).aud k).writer ∧ t.inFlight = (s.reportAll k l).inFlight
         let quiet := (t.aud k).seq = (s.aud k).seq ∧ (t.aud k).builder = (s.aud k).builder
           ∧ (t.aud k).mixer = (s.aud k).mixer
         let signalled := (∀ name : RingName, ((t.aud k).mixer.ring name).resync = true)
           ∧ ((s.aud k).unit.showState ≠ .dark → ∀ e ∈ (t.aud k).builder.queue, e.kind ≠ .start)
           ∧ (t.aud k).seq.cursor = (s.aud k).seq.cursor
         let cleared := clearedScreens (s.aud k).unit.channels.captions (s.aud k).seq.active
         let told := fun emptied : Bool => (t.aud k).builder
           = (((s.signalBuilder k).seqSendAll k (if emptied then cleared else [])).aud k).builder
         let seated := fun paused : Bool =>
           clock = { heard with
             showTime := shown, anchor := first, fraction := 0, slew := 0, e1 := 0, e2 := 0, seats := c.seats + 1
             state := if paused then .paused else .acquiring, acquire := if paused then c.acquire else 1 }
           ∧ reported [.clockSeated c.showTime shown] ∧ signalled ∧ told (decide ((s.aud k).seq.state = .walking))
           ∧ ((s.aud k).seq.state = .walking ∨ (s.aud k).seq.state = .seeking
               ∨ ((s.aud k).seq.state = .idle ∧ s.holdsRole k .cues = true) →
             (t.aud k).seq.state = .seeking ∧ (t.aud k).seq.window = []
               ∧ (∀ ch : Channel, (t.aud k).seq.active[ch] = [])
               ∧ (t.aud k).seq.seek.map Seek.target = some shown)
           ∧ ((s.aud k).seq.state = .faulted ∨ ((s.aud k).seq.state = .idle ∧ s.holdsRole k .cues = false) →
             (t.aud k).seq = (s.aud k).seq)
         (c.state = .idle → clock = c ∧ quiet ∧ reported [])
          ∧ (c.state = .searching ∨ c.state = .lost →
              (doing = 1#8 → seated false) ∧ (doing = 2#8 → seated true))
          ∧ (c.state = .searching → doing = 3#8 → clock = heard ∧ quiet ∧ reported [])
          ∧ (c.state = .lost → doing = 3#8 →
              clock = { heard with slew := 0, state := .searching } ∧ quiet ∧ reported [.clockStopped])
          ∧ (running → ¬near → (doing = 1#8 → seated false) ∧ (doing = 2#8 → seated true))
          ∧ (running → near → doing = 2#8 → quiet ∧ reported [.clockPaused]
              ∧ clock = { heard with
                  showTime := BitVec.ofInt 32 (max c.showTime.toNat (min predicted 4294967295))
                  anchor := first, slew := 0, state := .paused })
          ∧ (running ∨ c.state = .paused → doing = 3#8 →
              clock = { heard with slew := 0, state := .searching } ∧ reported [.clockStopped] ∧ signalled
              ∧ told (decide ((s.aud k).seq.state = .walking ∨ (s.aud k).seq.state = .seeking))
              ∧ ((s.aud k).seq.state = .walking ∨ (s.aud k).seq.state = .seeking →
                  (t.aud k).seq.state = .idle ∧ (t.aud k).seq.window = [] ∧ (t.aud k).seq.seek = none
                  ∧ ∀ ch : Channel, (t.aud k).seq.active[ch] = []))
          ∧ (c.state = .acquiring → near → doing = 1#8 → c.acquire < 2 → quiet
              ∧ clock = { steered with acquire := c.acquire + 1 } ∧ reported offSpeed)
          ∧ (c.state = .acquiring → near → doing = 1#8 → 2 ≤ c.acquire → quiet
              ∧ clock = { steered with acquire := c.acquire + 1, state := .locked }
              ∧ reported (offSpeed ++ [.clockLocked c.showTime steered.eps]))
          ∧ (c.state = .locked → near → doing = 1#8 → quiet ∧ clock = steered ∧ reported offSpeed)
          ∧ (c.state = .flywheel → near → doing = 1#8 → quiet ∧ clock = { steered with state := .locked }
              ∧ reported (offSpeed ++ [.clockLocked c.showTime steered.eps]))
          ∧ (c.state = .paused → near → doing = 1#8 → quiet ∧ reported [.clockResumed]
              ∧ clock = { heard with
                  showTime := if c.showTime.toNat < shown.toNat then shown else c.showTime
                  anchor := first, slew := 0, state := .locked })
          ∧ (c.state = .paused → ¬near → doing = 1#8 → seated false)
          ∧ (c.state = .paused → 240 < error.natAbs → doing = 2#8 → seated true)
          ∧ (c.state = .paused → error.natAbs ≤ 240 → doing = 2#8 → clock = heard ∧ quiet ∧ reported []))

/-- TIMECODE_BYTE_ARRIVAL and BYTE_GAP_EXPIRY (R2, R4 to R6, R10): the tenth byte of a message that fails any condition
(its sum, its state, its rate code, a BCD digit, hours, minutes, seconds, the frame against its rate, or a repeat of
the last sequence number), and a gap of 97 ticks, each leave one more bad report, HUNTING and an empty buffer, and the
clock hears nothing; a gap of 96 ticks or less does nothing. A byte that comes 97 ticks or more after the one before
abandons the message and counts it, and is then hunted: a sync byte begins the next message. -/
def Obligations.BadAndAbandonedMessagesAreCounted : Prop :=
  ∀ (k : Aud) (b : Byte) (t0 : Word) (s : State), (s.aud k).receiver.state = .assembling →
    (s.aud k).receiver.latestTick = some t0 →
    let counted := fun t : State => State.OnlyAud k s t ∧ t.inFlight = s.inFlight
      ∧ t.aud k = { s.aud k with receiver := { (s.aud k).receiver with
          state := .hunting, buffer := [], firstTick := none, latestTick := none
          badReports := (s.aud k).receiver.badReports + 1 } }
    let m := (s.aud k).receiver.buffer ++ [b]
    let field := fun i => (m.getD i 0).toNat
    let digits := fun i => field i / 16 ≤ 9 ∧ field i % 16 ≤ 9
    let value := fun i => 10 * (field i / 16) + field i % 16
    let invalid := (((m.drop 1).map BitVec.toNat).sum % 256 ≠ 0)
      ∨ (s.aud k).receiver.lastSequence = some (m.getD 8 0)
      ∨ field 1 = 0 ∨ 3 < field 1 ∨ 5 < field 2
      ∨ ¬(digits 3 ∧ digits 4 ∧ digits 5 ∧ digits 6) ∨ 23 < value 3 ∨ 59 < value 4 ∨ 59 < value 5
      ∨ [24, 25, 30, 48, 50, 60].getD (field 2) 0 ≤ value 6
    (s.partState = .running → (s.houseTime - t0).toNat ≤ 96 → (s.aud k).receiver.buffer.length = 9 → invalid →
      ∃ t, exec (.timecodeByteArrival k b) s = .next t ∧ counted t) ∧
    (s.partState = .running → 97 ≤ (s.houseTime - t0).toNat →
      ∃ t, exec (.timecodeByteArrival k b) s = .next t ∧ State.OnlyAud k s t ∧ t.inFlight = s.inFlight
        ∧ (b ≠ 0xA5#8 → counted t)
        ∧ (b = 0xA5#8 → t.aud k = { s.aud k with receiver := { (s.aud k).receiver with
            state := .assembling, buffer := [0xA5#8], firstTick := some s.houseTime
            latestTick := some s.houseTime, badReports := (s.aud k).receiver.badReports + 1 } })) ∧
    (97 ≤ (s.houseTime - t0).toNat → ∃ t, exec (.byteGapExpiry k) s = .next t ∧ counted t) ∧
    ((s.houseTime - t0).toNat ≤ 96 → exec (.byteGapExpiry k) s = .next s)

/-! ## The Show Clock -/

/-- FRAME_BOUNDARY (R14, R16): the boundary is taken, the anchor moves to it, the boundary record holds what the
clock holds, and the boundary leaves the rate offset, the error history, the tally, the seats count and the settings. A
clock that it finds in ACQUIRING, LOCKED or FLYWHEEL advances: with the ticks since its anchor, T made of them, the rate
offset and the fraction, the show time gains those ticks, the floor of T and the slew, but never falls, and stands at
4,294,967,295; the fraction keeps the remainder and the slew becomes 0. A clock in its ranges 480 ticks after its anchor
so gains 431 to 529 show ticks. In every other state show time and fraction stay. -/
def Obligations.BoundaryAdvancesTheClockWithinBounds : Prop :=
  ∀ (k : Aud) (o : Bool) (s : State), (s.aud k).boundaryDue = true →
    let c := (s.aud k).clock
    let advances := c.state = .acquiring ∨ c.state = .locked ∨ c.state = .flywheel
    let passed : Int := ((s.houseTime - c.anchor).toNat : Int)
    let drift : Int := passed * c.eps + (c.fraction : Int)
    ∃ t, exec (.frameBoundary k o) s = .next t ∧ State.OnlyAud k s t ∧ (t.aud k).boundaryDue = false
      ∧ (t.aud k).receiver = (s.aud k).receiver ∧ (t.aud k).link = (s.aud k).link
      ∧ (t.aud k).unit = (s.aud k).unit ∧ (t.aud k).epochs = (s.aud k).epochs
      ∧ (t.aud k).clock.anchor = s.houseTime ∧ (t.aud k).clock.eps = c.eps ∧ (t.aud k).clock.e1 = c.e1
      ∧ (t.aud k).clock.e2 = c.e2 ∧ (t.aud k).clock.acquire = c.acquire
      ∧ (t.aud k).clock.tally = c.tally ∧ (t.aud k).clock.seats = c.seats ∧ (t.aud k).clock.loop = c.loop
      ∧ (t.aud k).clock.record =
          { showTime := (t.aud k).clock.showTime, state := (t.aud k).clock.state, eps := (t.aud k).clock.eps
            tally := (t.aud k).clock.tally, seats := (t.aud k).clock.seats, houseTime := s.houseTime }
      ∧ (advances →
          ((t.aud k).clock.showTime.toNat : Int)
              = min (c.showTime.toNat + max 0 (passed + drift / 16777216 + c.slew)) 4294967295
          ∧ ((t.aud k).clock.fraction : Int) = drift % 16777216 ∧ (t.aud k).clock.slew = 0)
      ∧ (c.Within → s.houseTime - c.anchor = 480 → advances →
          (c.showTime.toNat + 431 ≤ (t.aud k).clock.showTime.toNat
              ∧ (t.aud k).clock.showTime.toNat ≤ c.showTime.toNat + 529)
            ∨ (t.aud k).clock.showTime.toNat = 4294967295)
      ∧ (¬advances → (t.aud k).clock.showTime = c.showTime ∧ (t.aud k).clock.fraction = c.fraction)

/-- FRAME_BOUNDARY (R15, R26, R59): in SEARCHING, ACQUIRING, LOCKED, FLYWHEEL and PAUSED the silence count rises by 1;
in LOST and IDLE it stays. A clock whose count exceeds holdover enters LOST and reports CLOCK_LOST; a LOCKED one whose
count otherwise exceeds 10 enters FLYWHEEL and reports CLOCK_FLYWHEEL; both clear the slew. Any other keeps its state
and reports nothing. Entering LOST delivers a clear order: every ring takes its resync mark, and a Sequencer that
follows goes to IDLE with empty screens, window and seek and its cursor kept; one in IDLE or FAULTED stays as it is. The
Builder hears its own signal, and then the removals and CLEARs of the Sequencer (the model's reading of their order, log
entry 5). Where no clear order goes out the mixer stays. The reports are the first thing the boundary asks the Report
Writer (the model's reading, log entry 28), and the only one where the Sequencer follows nothing. -/
def Obligations.SilenceLeadsToFlywheelAndLost : Prop :=
  ∀ (k : Aud) (o : Bool) (s : State), (s.aud k).boundaryDue = true → s.partState = .running →
    let c := (s.aud k).clock
    let q := (s.aud k).seq
    let counts := c.state = .searching ∨ c.state = .acquiring ∨ c.state = .locked ∨ c.state = .flywheel
      ∨ c.state = .paused
    let follows := q.state = .walking ∨ q.state = .seeking
    let lost := counts ∧ c.loop.holdover < c.silence + 1
    let flew := ¬lost ∧ c.state = .locked ∧ 10 < c.silence + 1
    let u := s.reportAll k (if lost then [.clockLost] else if flew then [.clockFlywheel] else [])
    ∃ t, exec (.frameBoundary k o) s = .next t
      ∧ (t.aud k).clock.silence = (if counts then c.silence + 1 else c.silence)
      ∧ (t.aud k).clock.state = (if lost then .lost else if flew then .flywheel else c.state)
      ∧ (lost ∨ flew → (t.aud k).clock.slew = 0)
      ∧ u.inFlight <+: t.inFlight
      ∧ (lost ∨ ¬follows → (∀ x, s.binding k .showRecord = some x → 511 ≤ x.limit.toNat) →
          (t.aud k).writer = (u.aud k).writer)
      ∧ (¬lost → (t.aud k).mixer = (s.aud k).mixer)
      ∧ (¬lost → ¬follows → (t.aud k).seq = q ∧ (t.aud k).builder = (s.aud k).builder)
      ∧ (lost → (t.aud k).mixer = { (s.aud k).mixer with
            ringA := { (s.aud k).mixer.ringA with resync := true }
            ringB := { (s.aud k).mixer.ringB with resync := true }
            bed := { (s.aud k).mixer.bed with resync := true } }
          ∧ (t.aud k).builder = (((s.signalBuilder k).seqSendAll k
              (if follows then clearedScreens (s.aud k).unit.channels.captions q.active else [])).aud k).builder)
      ∧ (lost → ¬follows → (t.aud k).seq = q)
      ∧ (lost → follows → (t.aud k).seq = { q with
            state := .idle, window := [], seek := none, seekGen := q.seekGen + 1, active := (t.aud k).seq.active }
          ∧ ∀ ch : Channel, (t.aud k).seq.active[ch] = [])

/-- R19 to R22 for one steered report of error `e`, as ValidMessageMovesTheClock uses it: the slew gains a quarter of
it and keeps to ±48, the rate offset moves by the rounded filter sum and keeps to ±eps_max, the history shifts, and
the tally moves by one when the unlimited rate offset left the limit, returning to 0 at ±32 with an
OFF_SPEED report. -/
def Obligations.SteeringFiltersAndSaturates : Prop :=
  ∀ (c : Clock) (e : Int), c.Within →
    let acc := c.loop.c0 * e + c.loop.c1 * c.e1 + c.loop.c2 * c.e2
    let raw := c.eps + (if c.loop.pm = 0 then acc else (acc + 2 ^ (c.loop.pm - 1)) / 2 ^ c.loop.pm)
    let moved := if c.loop.epsMax = 0 then c.tally else if (c.loop.epsMax : Int) < raw then c.tally + 1
      else if raw < -(c.loop.epsMax : Int) then c.tally - 1 else c.tally
    (c.steer e).1.slew = max (-48) (min 48 (c.slew + Int.tdiv e 4))
      ∧ (c.steer e).1.eps = max (-(c.loop.epsMax : Int)) (min (c.loop.epsMax : Int) raw)
      ∧ (c.steer e).1.e1 = e ∧ (c.steer e).1.e2 = c.e1
      ∧ (c.steer e).1.tally = (if moved = 32 ∨ moved = -32 then 0 else moved)
      ∧ (c.steer e).2 = (if moved = 32 ∨ moved = -32 then [.offSpeed (moved = -32) (c.steer e).1.eps] else [])
      ∧ (c.steer e).1.showTime = c.showTime ∧ (c.steer e).1.fraction = c.fraction
      ∧ (c.steer e).1.state = c.state

/-! ## Boundaries of a show record, build points -/

/-- R146, R150, R151, R61, R192: what a boundary asks of host memory while the part is RUNNING. Of a DARK auditorium
it reads the descriptor of its show record, unless that read is in flight. Of any other it reads the head, and once
the first head read is done it writes the status snapshot, whose 192 bytes hold the auditorium's values at their
offsets: the clock's from the record of this boundary, the Sequencer's as the walk of this boundary leaves them, or,
where the snapshot is taken first, as the walk finds them. R61 leaves that order open: the operand `o` is the model's
free value (log entry 4); that the seats counter is the boundary record's is the model's reading (log entry 30). -/
def Obligations.BoundaryReadsHeadOrDescriptor : Prop :=
  ∀ (k : Aud) (o : Bool) (s : State), (s.aud k).boundaryDue = true → s.partState = .running →
    ((s.aud k).unit.showState = .dark → ∃ t, exec (.frameBoundary k o) s = .next t
      ∧ ((∀ a ∈ s.inFlight, a.aud = some k → a.purpose ≠ .darkCheckRead) →
          s.TableIssued t (some k) .showRecord (BitVec.ofNat 8 (k.val + 1)) 0 16 [] .darkCheckRead)
      ∧ ((∃ a ∈ s.inFlight, a.aud = some k ∧ a.purpose = .darkCheckRead) →
          ∀ a ∈ t.inFlight, a.purpose = .darkCheckRead → a ∈ s.inFlight)
      ∧ ∀ a ∈ t.inFlight, a.purpose = .headRead ∨ a.purpose = .snapshotWrite → a ∈ s.inFlight) ∧
    (∀ x, (s.aud k).unit.showState ≠ .dark → s.binding k .showRecord = some x → 511 ≤ x.limit.toNat →
      ∃ t, exec (.frameBoundary k o) s = .next t ∧ s.Issued t k .showRecord 0 64 [] .headRead
        ∧ ((s.aud k).unit.firstHead = false →
            ∀ a ∈ t.inFlight, a.purpose = .snapshotWrite → a ∈ s.inFlight)
        ∧ ((s.aud k).unit.firstHead = true → ∃ (y : Auditorium) (bytes : List Byte),
            s.Issued t k .showRecord 320 192 bytes .snapshotWrite ∧
            let lost := (t.aud k).clock.state = .lost ∧ (s.aud k).clock.state ≠ .lost
            let flew := (t.aud k).clock.state = .flywheel ∧ (s.aud k).clock.state ≠ .flywheel
            let r := (t.aud k).clock.record
            let at' := fun offset length => (bytes.drop (offset - 320)).take length
            (o = false ∨ lost → y = t.aud k)
              ∧ (o = true → ¬lost → y = { t.aud k with
                  seq := (s.aud k).seq, builder := (s.aud k).builder
                  writer := ((s.reportAll k (if flew then [.clockFlywheel] else [])).aud k).writer })
              ∧ bytes.length = 192
              ∧ at' 320 4 = leWord y.unit.ackGeneration
              ∧ at' 324 4 = [
                  match y.unit.showState with
                  | .dark => 0#8 | .halted => 1#8 | .running => 2#8 | .closing => 3#8,
                  match r.state with
                  | .idle => 0#8 | .searching => 1#8 | .acquiring => 2#8 | .locked => 3#8 | .flywheel => 4#8
                  | .paused => 5#8 | .lost => 6#8,
                  match y.seq.state with
                  | .idle => 0#8 | .seeking => 1#8 | .walking => 2#8 | .faulted => 3#8,
                  (match y.link.state with
                  | .idle => 0#8 | .calling => 1#8 | .sending => 2#8 | .awaitingVerdict => 3#8 | .waiting => 4#8)
                  ||| (if y.link.down then 0x80#8 else 0#8)]
              ∧ at' 328 9 = leWord r.showTime ++ leInt r.eps ++ [BitVec.ofInt 8 r.tally]
              ∧ (y.unit.tag = .empty → at' 337 7 = List.replicate 7 0)
              ∧ (∀ first, y.unit.tag = .firstSet first → at' 337 7 = [1, 0, 0] ++ leNat16 first ++ [0, 0])
              ∧ (∀ first last untags, y.unit.tag = .rangeSet first last untags →
                  at' 337 7 = [2, BitVec.ofNat 8 untags.length, 0] ++ leNat16 first ++ leNat16 last)
              ∧ at' 344 4 = leNat16 y.seq.cursor ++ leNat16 y.seq.listCount
              ∧ at' 348 12 = [y.mixer.ringA.take, y.mixer.ringB.take, y.mixer.bed.take].flatMap leWord
              ∧ at' 360 8 = leWord y.writer.writeCount ++ leWord y.writer.missed
              ∧ at' 368 64 = [y.receiver.badReports, r.seats, y.seq.staleCues, y.builder.lateCues, y.seq.crowded,
                  y.builder.overflow, y.seq.truncated, y.seq.badCues, y.mixer.ringA.underruns,
                  y.mixer.ringB.underruns, y.mixer.bed.underruns, y.mixer.clippedA, y.mixer.clippedB,
                  y.builder.framesBuilt, y.link.dropped, y.link.retries].flatMap leWord
              ∧ at' 432 80 = List.replicate 80 0))

/-- R53 to R58, R43, R40: the walk at a boundary that finds a WALKING Sequencer and a clock that is not IDLE and does
not become lost; a PAUSED clock's show time stands. Cues that have ended by the show time leave their screens, the
others stay. The slots taken from the head of the window are those held and due, and what stops the walk below the list
count is a slot still READING or not yet due. Each taken slot in turn is skipped, counted stale or bad, clears its
channel's screen, or joins it, the oldest of four leaving and counted crowded (R54 to R56, as `Taken.next` reads them).
The Builder gets the requests of the expired cues, then those of the slots, in that order. The cursor rises by the slots
taken. At the list count the list-end mark is set, with a LIST_END report where it was clear, after the clock's own
report (the model's reading, log entry 28). The refill's slots follow, each with the read of its entry issued, in rising
order. -/
def Obligations.WalkExpiresIssuesAndRefills : Prop :=
  ∀ (k : Aud) (o : Bool) (s : State), (s.aud k).boundaryDue = true → s.partState = .running →
    (s.aud k).unit.showState = .running → (s.aud k).clock.state ≠ .idle →
    ((s.aud k).clock.state ≠ .lost → (s.aud k).clock.silence < (s.aud k).clock.loop.holdover) →
    (s.aud k).seq.state = .walking →
    ∃ t, exec (.frameBoundary k o) s = .next t ∧ State.OnlyAud k s t ∧
      let q := (s.aud k).seq
      let q' := (t.aud k).seq
      let now := (t.aud k).clock.showTime
      let taken := q'.cursor - q.cursor
      let mask := (s.aud k).unit.channels.captions
      let start : Taken :=
        { screens := fun c => q.active[c].filter fun a => now.toNat < a.finish.toNat
          sent := ([0, 1, 2, 3] : List Channel).flatMap fun c =>
            (q.active[c].filter fun a => a.finish.toNat ≤ now.toNat).map fun a => .remove c a.cue .expired
          stale := 0, bad := 0, crowded := 0 }
      let r := (q.window.take taken).foldl (Taken.next mask (s.seqEnv k).epoch now) start
      let fresh := (List.range (min (q'.cursor + 16) q.listCount)).drop (q'.cursor + (q.window.drop taken).length)
      let ended := q'.cursor = q.listCount ∧ q.listEnd = false
      let flew := (s.aud k).clock.state = .locked ∧ 10 ≤ (s.aud k).clock.silence
      let u := (s.reportAll k (if flew then [.clockFlywheel] else [])).seqSendAll k
        (r.sent ++ (if ended then [.report (.listEnd q'.cursor)] else []) ++ fresh.map (.readEntry q.seekGen))
      q'.state = .walking ∧ q'.listCount = q.listCount ∧ q'.seekGen = q.seekGen ∧ q'.seek = q.seek
        ∧ q.cursor ≤ q'.cursor ∧ q'.cursor ≤ q.cursor + q.window.length
        ∧ ((s.aud k).clock.state = .paused → now = (s.aud k).clock.showTime)
        ∧ (∀ c : Channel, ∀ a ∈ q'.active[c], now.toNat < a.finish.toNat)
        ∧ (∀ x ∈ q.window.take taken, x.state ≠ .reading ∧ ∃ e, x.entry = some e ∧ e.start.toNat ≤ now.toNat)
        ∧ (∀ x, (q.window.drop taken).head? = some x → q'.cursor < q.listCount → x.state ≠ .reading →
            ∀ e, x.entry = some e → now.toNat < e.start.toNat)
        ∧ (∀ c : Channel, q'.active[c] = r.screens c)
        ∧ q'.staleCues = q.staleCues + BitVec.ofNat 32 r.stale
        ∧ q'.badCues = q.badCues + BitVec.ofNat 32 r.bad
        ∧ q'.crowded = q.crowded + BitVec.ofNat 32 r.crowded ∧ q'.truncated = q.truncated
        ∧ (t.aud k).builder = (u.aud k).builder
        ∧ ((∀ x, s.binding k .showRecord = some x → 511 ≤ x.limit.toNat) → (t.aud k).writer = (u.aud k).writer)
        ∧ q'.window = q.window.drop taken ++ fresh.map (fun i =>
            { index := i, state := .reading, retracted := false, bad := false, entry := none, text := none })
        ∧ (∀ x, s.binding k .cues = some x → 32 + 32 * q.listCount ≤ x.limit.toNat + 1 →
            s.EntriesRead t k (.entryRead q.seekGen) fresh)
        ∧ q'.listEnd = (q.listEnd || decide (q'.cursor = q.listCount))

/-- R82 to R85, R77: a ring's frame against the show time `e`. The position rises by 2 for each of the 240, 241 or
239 source samples its alignment reads, from `e` itself at a resync, which takes every block that ends by `e`. Each
source sample in turn is its block's, or gap or filler silence, and moves blocks, take count, condition and reports on
(R83 to R85, as `Heard.next` reads them); a drop leaves out the 121st, a repeat gives the 120th twice, so 240 come out.
The take count rises by the blocks that leave; the frame counts one underrun where a filler sample was read in PLAYING
or STARVED; a ring without blocks gives silence. The model's readings: a failed block is taken as soon as it is the
oldest (log entry 10), and times compare as plain numbers (log entry 11). -/
def Obligations.RingFrameKeepsPaceWithTheShow : Prop :=
  ∀ (name : RingName) (e : Word) (r : Ring),
    let d := (e - r.position).toInt
    let again : Bool := r.resync || decide (480 < d.natAbs)
    let sources := if again then 240 else if 2 ≤ d then 241 else if d ≤ -2 then 239 else 240
    let first := if again then e else r.position
    let stale := fun b : RingBlock => match b.state with
      | .held blk => decide (blk.start.toNat + 2 * blk.samples.length ≤ e.toNat)
      | _ => false
    let start : Heard :=
      { blocks := if again then r.blocks.filter (fun b => !stale b) else r.blocks
        take := if again then r.take + BitVec.ofNat 32 (r.blocks.countP stale) else r.take
        condition := r.condition, samples := [], reports := [], short := false }
    let h := ((List.range sources).map fun i => first + BitVec.ofNat 32 (2 * i)).foldl (Heard.next name) start
    let p := r.play name e
    p.1.position = first + BitVec.ofNat 32 (2 * sources)
      ∧ p.2.1.length = 240 ∧ p.1.resync = false
      ∧ p.1.blocks.Sublist r.blocks
      ∧ p.1.take = r.take + BitVec.ofNat 32 (r.blocks.length - p.1.blocks.length)
      ∧ (p.1.underruns = r.underruns ∨ p.1.underruns = r.underruns + 1)
      ∧ p.1.bound = r.bound ∧ p.1.capacity = r.capacity ∧ p.1.fill = r.fill ∧ p.1.fetchGen = r.fetchGen
      ∧ (r.blocks = [] → ∀ x ∈ p.2.1, x.value = 0 ∧ x.active = false)
      ∧ p.1.blocks = h.blocks ∧ p.1.take = h.take ∧ p.1.condition = h.condition ∧ p.2.2 = h.reports
      ∧ p.1.underruns = r.underruns + (if h.short then 1 else 0)
      ∧ p.2.1 = (if sources = 241 then h.samples.eraseIdx 120
          else if sources = 239 then h.samples.take 120 ++ (h.samples.drop 119).take 1 ++ h.samples.drop 120
          else h.samples)

/-- R88, R89: over a run of output samples the bed gain moves once a sample toward gd while the narration is active
and toward gb while it is not, by at most attack down and release up and never past it; each output is the sum of
both products over unity, halves rounded upward, limited to 16 bits, and each limited one is counted. -/
def Obligations.MixRampsTheBedGainAndLimitsTheOutput : Prop :=
  ∀ (m : MixSettings) (ns bs : List Sample) (g : Nat), ns.length = bs.length →
    ∃ gains : List Nat, gains.length = ns.length ∧
      let raw := fun i => ((ns.getD i quiet).value.toInt * m.gn.toNat
        + (bs.getD i quiet).value.toInt * (gains.getD i 0 : Nat) + 16384) / 32768
      (∀ i, i < ns.length →
        let before := (g :: gains).getD i 0
        let now := gains.getD i 0
        let target := if (ns.getD i quiet).active then m.gd.toNat else m.gb.toNat
        (target < before → now = max target (before - m.attack.toNat))
          ∧ (before < target → now = min target (before + m.release.toNat))
          ∧ (before = target → now = before)
          ∧ ((mixRun m ns bs g).2.1.getD i 0).toInt = max (-32768) (min 32767 (raw i)))
        ∧ (mixRun m ns bs g).1 = gains.getLastD g
        ∧ (mixRun m ns bs g).2.1.length = ns.length
        ∧ (mixRun m ns bs g).2.2
          = (List.range ns.length).countP fun i => decide (32767 < raw i ∨ raw i < -32768)

/-- BUILD_POINT (R79, R80, R98 to R100, R105 to R108, R111, R118): a RUNNING show builds one frame, numbered and
counted, under the boundary record and within the payload limit, and hands it to the link. Its sections are one of
narration for each enabled channel, A before B, muted unless the clock is LOCKED or FLYWHEEL; then those of the air
queue's ready entries in order up to the first that does not fit, each of which loses a copy; then a refresh of each
record that is due and fits. A HALTED or DARK show, or a part that is not RUNNING, builds nothing.
The narration sections, and the mixer's rings, bed gains, clipped counts and reports after the frame, are those of
`Ring.play` for each ring the frame uses and of `mixRun` for each enabled channel (R80, R86, R90, as `Mixer.voices` and
`Mixer.afterFrame` put them together). Then each used ring asks for its next blocks (R79): up to three on chip or in
flight, and no more than it holds, in block order, each from its place in the region; the rings come in the model's
order A, B, bed (log entries 12 and 32).
The Sequencer's requests (R100 to R104, R109, R113, R115) reach the Builder of a HALTED or RUNNING show of a RUNNING
part alone: START makes a record and queues an entry where the queue has room, and counts an overflow where it has none;
a text-ready notice ends a wait; a removal deletes the START, queues an END for an aired cue where one may be queued,
counts a late cue, and deletes the record; CLEAR deletes the ENDs of its channel and joins. A signal of the clock (R110)
keeps the CLEARs alone. That a second START for a queued cue makes no record is the model's choice (log entry 33), as
is that a START whose cue is not on screen is passed over (log entry 24). -/
def Obligations.BuilderQueuesRequestsAndBuildsFrames : Prop :=
  (∀ (k : Aud) (s : State), (s.aud k).buildDue = true →
    ((s.partState ≠ .running ∨ (s.aud k).unit.showState = .halted ∨ (s.aud k).unit.showState = .dark) →
      ∃ t, exec (.buildPoint k) s = .next t ∧ State.OnlyAud k s t ∧ t.inFlight = s.inFlight
        ∧ t.aud k = { s.aud k with buildDue := false }) ∧
    (s.partState = .running → (s.aud k).unit.showState = .running →
      ∃ (t : State) (f : AirFrame) (narration queued refreshed : List AirSection),
        exec (.buildPoint k) s = .next t ∧ State.OnlyAud k s t
        ∧ (t.aud k).clock = (s.aud k).clock ∧ (t.aud k).seq = (s.aud k).seq
        ∧ (t.aud k).receiver = (s.aud k).receiver ∧ (t.aud k).unit = (s.aud k).unit
        ∧ f.auditorium = k ∧ f.sequence = (s.aud k).builder.sequence ∧ f.closing = false
        ∧ f.showTime = (s.aud k).clock.record.showTime ∧ f.clockState = (s.aud k).clock.record.state
        ∧ f.payload ≤ 1536 ∧ f.sections = narration ++ queued ++ refreshed
        ∧ ((s.aud k).link.frame = none →
            (t.aud k).link.frame = some f ∧ (t.aud k).link.state = .calling ∧ (t.aud k).link.retry = false)
        ∧ ((s.aud k).link.frame ≠ none →
            (t.aud k).link.next = some f ∧ (t.aud k).link.frame = (s.aud k).link.frame
            ∧ (t.aud k).link.dropped
              = (s.aud k).link.dropped + (if (s.aud k).link.next = none then 0 else 1))
        ∧ narration = (s.aud k).mixer.voices (s.aud k).unit.channels.narration (s.aud k).clock.record
        ∧ (let a := s.aud k
           let b := a.builder
           let now := a.clock.record.showTime
           let enabled := [false, true].filter fun v => a.unit.channels.narration.getLsbD v.toNat
           let ready := b.queue.zipIdx.filterMap fun (e, i) =>
             if e.waiting then none else (sectionOfEntry a now e).map fun x => (i, e, x)
           (narration.map fun x => match x with
              | .narration v _ samples => some (v, samples.length) | _ => none) = enabled.map (fun v => some (v, 240))
            ∧ (a.clock.record.state ≠ .locked → a.clock.record.state ≠ .flywheel →
                narration = enabled.map fun v => .narration v true (List.replicate 240 0))
            ∧ ∃ n, n ≤ ready.length ∧
              let placed := ready.take n
              let left := b.queue.zipIdx.flatMap fun (e, i) =>
                if i ∈ placed.map Prod.fst then (if e.copies ≤ 1 then [] else [{ e with copies := e.copies - 1 }])
                else [e]
              let started := placed.filterMap fun p => if p.2.1.kind = .start then p.2.1.cue else none
              let records := b.records.map fun r =>
                if r.cue ∈ started then { r with aired := true, countdown := a.unit.channels.refresh }
                else { r with countdown := r.countdown - 1 }
              let last := records.foldl (fun (acc : List AirRecord × List AirSection) r =>
                let due := r.countdown = 0 ∧ r.textHeld = true ∧ ∀ e ∈ left, ¬(e.kind = .start ∧ e.cue = some r.cue)
                match if due then sectionOfStart a.seq.active[r.channel] r.channel r.cue true r.reentered now
                  else none with
                | some x =>
                  if payloadSize (narration ++ queued ++ acc.2) + x.size ≤ 1536 then
                    (acc.1 ++ [{ r with aired := true, countdown := a.unit.channels.refresh }], acc.2 ++ [x])
                  else (acc.1 ++ [r], acc.2)
                | none => (acc.1 ++ [r], acc.2)) ([], [])
              queued = placed.map (fun p => p.2.2)
                ∧ (n < ready.length →
                  1536 < payloadSize (narration ++ (ready.take (n + 1)).map fun p => p.2.2))
                ∧ refreshed = last.2
                ∧ (t.aud k).builder = { b with
                    queue := left, records := last.1, sequence := b.sequence + 1
                    framesBuilt := b.framesBuilt + 1 }))) ∧
  (∀ (k : Aud) (s : State), (s.aud k).buildDue = true → s.partState = .running →
    (s.aud k).unit.showState = .running →
    let old := (s.aud k).mixer
    let mask := (s.aud k).unit.channels.narration
    let m := old.afterFrame mask (s.aud k).clock.record
    let asked := fun name => if m.uses mask name then (m.ring name).ahead else []
    ∃ t, exec (.buildPoint k) s = .next t
      ∧ (t.aud k).mixer = { m with
          ringA := (t.aud k).mixer.ringA, ringB := (t.aud k).mixer.ringB, bed := (t.aud k).mixer.bed }
      ∧ ((∀ name, m.uses mask name = true → ∃ x, s.binding k name.role = some x ∧ 1 ≤ (m.ring name).capacity
            ∧ (m.ring name).capacity * 512 ≤ x.limit.toNat + 1) →
          (t.aud k).writer = ((s.reportAll k (old.frameReports mask (s.aud k).clock.record)).aud k).writer
          ∧ (∀ name, (t.aud k).mixer.ring name = { m.ring name with
              blocks := (m.ring name).blocks ++ (asked name).map fun n => { number := n, state := .reading } })
          ∧ (t.inFlight.drop s.inFlight.length).filterMap (fun a => match a.purpose with
              | .blockRead name gen number => some (name, gen, number) | _ => none)
            = [RingName.a, .b, .bed].flatMap (fun name => (asked name).map fun n => (name, (m.ring name).fetchGen, n))
          ∧ ∀ name, ∀ n ∈ asked name, s.Issued t k name.role (n.toNat % (m.ring name).capacity * 512) 512 []
              (.blockRead name (m.ring name).fetchGen n))) ∧
  (∀ (k : Aud) (c : Channel) (cue : CueId) (reentered held : Bool) (cause : Removal) (s : State),
    let b := (s.aud k).builder
    let copies := (s.aud k).unit.channels.copies + 1
    let takes := s.partState = .running
      ∧ ((s.aud k).unit.showState = .halted ∨ (s.aud k).unit.showState = .running)
    let isStart := fun e : QueueEntry => decide (e.kind = .start ∧ e.cue = some cue)
    let joined := fun (b : Builder) (kind : QueueKind) (of : Option CueId) (waiting : Bool) =>
      if b.queue.length < 32 then
        { b with queue := b.queue ++ [{ kind := kind, channel := c, cue := of, copies := copies, waiting := waiting }] }
      else { b with overflow := b.overflow + 1 }
    let leaves := fun (o : SeqOut) (b' : Builder) =>
      (takes → s.seqSend k o = s.setAud k { s.aud k with builder := b' }) ∧ (¬takes → s.seqSend k o = s)
    (b.queue.any isStart = true → leaves (.start c cue reentered held) b)
      ∧ (b.queue.any isStart = false → leaves (.start c cue reentered held)
          (joined { b with records := b.records ++ [
              { cue := cue, channel := c, reentered := reentered, textHeld := held, aired := false, countdown := 0 }] }
            .start (some cue) !held))
      ∧ ((∀ r ∈ b.records, r.cue ≠ cue) → leaves (.textReady cue) b ∧ leaves (.remove c cue cause) b)
      ∧ ((∃ r ∈ b.records, r.cue = cue) → leaves (.textReady cue) { b with
          records := b.records.map fun r => if r.cue = cue then { r with textHeld := true } else r
          queue := b.queue.map fun e => if isStart e then { e with waiting := false } else e })
      ∧ (∀ r, b.records.find? (fun r => r.cue = cue) = some r →
          let b1 := { b with queue := b.queue.filter fun e => !isStart e }
          let b2 := if r.aired = true ∧ cause ≠ .clearCue then joined b1 .finish (some cue) false else b1
          leaves (.remove c cue cause) { b2 with
            lateCues := b.lateCues + (if cause = .expired ∧ r.aired = false then 1 else 0)
            records := b.records.filter fun r => decide (r.cue ≠ cue) })
      ∧ leaves (.clear c) (joined
          { b with queue := b.queue.filter fun e => decide ¬(e.kind = .finish ∧ e.channel = c) } .clear none false)
      ∧ (s.partState = .running → (s.aud k).unit.showState ≠ .dark →
          s.signalBuilder k = s.setAud k { s.aud k with
            builder := { b with queue := b.queue.filter fun e => decide (e.kind = .clear) } }))

/-- BUILD_POINT of a CLOSING show (R99, R113, R118, R129): a closing frame, numbered and counted, of one narration
section for each enabled channel, A before B, and one CLEAR for each enabled caption channel. The narration is silent
where the boundary record's clock does not play (the model's reading, log entry 29), and also where no ring has a block,
as a HALT leaves them. No block is
asked for. The closing count falls by 1, and the show becomes HALTED when it reaches 0. The frame comes into flight on a
link with no frame, and else into its pending slot, a frame it replaces there being dropped and counted. -/
def Obligations.ClosingFramesEndTheShow : Prop :=
  ∀ (k : Aud) (s : State), (s.aud k).buildDue = true → s.partState = .running →
    (s.aud k).unit.showState = .closing → 1 ≤ (s.aud k).builder.closing →
    let b := (s.aud k).builder
    let old := (s.aud k).mixer
    let link := (s.aud k).link
    let mask := (s.aud k).unit.channels.narration
    let rec' := (s.aud k).clock.record
    let narration := old.voices mask rec'
    let silence := ([false, true].filter fun v => mask.getLsbD v.toNat).map fun v =>
      AirSection.narration v true (List.replicate 240 0)
    let f : AirFrame :=
      { auditorium := k, clockState := rec'.state, sequence := b.sequence, showTime := rec'.showTime, closing := true
        sections := narration ++ (([0, 1, 2, 3] : List Channel).filter
          fun c => (s.aud k).unit.channels.captions.getLsbD c.val).map AirSection.clear }
    let reported := s.reportAll k (old.frameReports mask rec')
    ∃ t, exec (.buildPoint k) s = .next t ∧ State.OnlyAud k s t ∧ t.inFlight = reported.inFlight
      ∧ t.aud k = { s.aud k with
          buildDue := false
          mixer := old.afterFrame mask rec'
          writer := (reported.aud k).writer
          builder := { b with
            closing := b.closing - 1, sequence := b.sequence + 1, framesBuilt := b.framesBuilt + 1 }
          unit := { (s.aud k).unit with showState := if b.closing = 1 then .halted else .closing }
          link := (t.aud k).link }
      ∧ (rec'.state ≠ .locked ∧ rec'.state ≠ .flywheel ∨ (∀ name, (old.ring name).blocks = []) →
          narration = silence)
      ∧ (link.frame = none → (t.aud k).link = { link with
          state := .calling, frame := some f, retry := false, retryDue := false, called := false, sent := 0
          shutDue := false })
      ∧ (link.frame ≠ none → (t.aud k).link = { link with
          next := some f, dropped := link.dropped + (if link.next = none then 0 else 1) })

/-! ## Emitter links -/

/-- CALL (R119, R117, R128): the call settings in force are latched and the CALL token carries the address.
A link that finishes under R130 sends no further CALL. WAIT_POLL (R125): WAIT polls again; any other byte calls for
the retry where one is due, else brings the pending frame into flight, else leaves the link IDLE. -/
def Obligations.CallLatchesSettingsAndWaitEnds : Prop :=
  (∀ (k : Aud) (s : State), (s.aud k).link.state = .calling → (s.aud k).link.called = false →
    (s.aud k).link.finishing = false →
    ∃ t, exec (.call k) s = .next t ∧ State.OnlyAud k s t ∧ t.inFlight = s.inFlight
      ∧ t.aud k = { s.aud k with link := { (s.aud k).link with
          address := (s.aud k).unit.channels.address, checkOn := (s.aud k).unit.channels.checkOn
          called := true, out := some (BitVec.ofNat 8 (0xC0 + (s.aud k).unit.channels.address.toNat)) } }) ∧
  (∀ (k : Aud) (s : State), (s.aud k).link.finishing = true →
    ∃ t, exec (.call k) s = .next t ∧ (∀ j, t.aud j = s.aud j) ∧ t.inFlight = s.inFlight) ∧
  (∀ (k : Aud) (b : Byte) (s : State), (s.aud k).link.state = .waiting →
    ∃ t, exec (.waitPoll k b) s = .next t ∧ t.aud k = { s.aud k with link := (t.aud k).link }
      ∧ (∀ j, j ≠ k → t.aud j = s.aud j) ∧ t.inFlight = s.inFlight ∧ t.bindings = s.bindings
      ∧ (b = 0#8 → (t.aud k).link = { (s.aud k).link with out := some 0#8 })
      ∧ (b ≠ 0#8 → (s.aud k).link.retryDue = true → (t.aud k).link.state = .calling
          ∧ (t.aud k).link.frame = (s.aud k).link.frame ∧ (t.aud k).link.retry = (s.aud k).link.retry
          ∧ (t.aud k).link.next = (s.aud k).link.next ∧ (t.aud k).link.retryDue = false)
      ∧ (∀ f, b ≠ 0#8 → (s.aud k).link.retryDue = false → (s.aud k).link.next = some f →
          (t.aud k).link.state = .calling ∧ (t.aud k).link.frame = some f ∧ (t.aud k).link.next = none
          ∧ (t.aud k).link.retry = false)
      ∧ (b ≠ 0#8 → (s.aud k).link.retryDue = false → (s.aud k).link.next = none →
          (t.aud k).link.state = .idle ∧ (t.aud k).link.frame = none)
      ∧ (t.aud k).link.dropped = (s.aud k).link.dropped
      ∧ (t.aud k).link.unanswered = (s.aud k).link.unanswered)

/-- CALL_ANSWER (R120, R126, R130): HEED leads to SENDING with the unanswered count and DOWN cleared, and reports
LINK_UP where DOWN stood. Outside a stop any other byte calls again where no frame is pending, and else drops the frame
in flight as unanswered, the fiftieth in a row setting DOWN and reporting LINK_DOWN, and the pending frame comes into
flight. Nothing else is reported. Of a link that finishes under R130 any other byte drops the frame, which is counted,
leaves the unanswered count, and leaves the link IDLE; a frame handed on since, of a show that came back, comes into
flight (the model's reading, log entry 14). -/
def Obligations.AnswerSendsCallsAgainOrDrops : Prop :=
  ∀ (k : Aud) (b : Byte) (s : State), (s.aud k).link.state = .calling → (s.aud k).link.called = true →
    (s.aud k).link.unanswered ≤ 50 →
    let held := (s.aud k).link
    let told := s.reportAll k (
      if b = 0x5A#8 then (if held.down then [.linkUp] else [])
      else if held.finishing = false ∧ held.next ≠ none ∧ held.unanswered = 49 then [.linkDown] else [])
    ∃ t, exec (.callAnswer k b) s = .next t ∧ (held.finishing = false → State.OnlyAud k s t)
      ∧ t.aud k = { s.aud k with link := (t.aud k).link, writer := (told.aud k).writer }
      ∧ t.inFlight = told.inFlight ∧ t.nextTag = told.nextTag
      ∧ (∀ j, j ≠ k → t.aud j = s.aud j) ∧ t.bindings = s.bindings
      ∧ (b = 0x5A#8 → (t.aud k).link = { held with
          state := .sending, unanswered := 0, down := false, called := false, sent := 0, shutDue := false
          out := some 0#8 })
      ∧ (b ≠ 0x5A#8 → held.finishing = false → held.next = none → (t.aud k).link = { held with
          called := false, out := some 0#8 })
      ∧ (∀ f, b ≠ 0x5A#8 → held.finishing = false → held.next = some f → (t.aud k).link = { held with
          frame := some f, next := none, retry := false, retryDue := false, called := false, sent := 0
          shutDue := false, dropped := held.dropped + 1
          unanswered := min 50 (held.unanswered + 1)
          down := held.down || held.unanswered == 49, out := some 0#8 })
      ∧ (b ≠ 0x5A#8 → held.finishing = true → held.next = none → (t.aud k).link = { held with
          state := .idle, frame := none, retry := false, retryDue := false, called := false, sent := 0
          shutDue := false, finishing := false, dropped := held.dropped + 1, out := some 0#8 })
      ∧ (∀ f, b ≠ 0x5A#8 → held.finishing = true → held.next = some f → (t.aud k).link = { held with
          frame := some f, next := none, retry := false, retryDue := false, called := false, sent := 0
          shutDue := false, finishing := false, dropped := held.dropped + 1, out := some 0#8 })
      ∧ (held.finishing = true → t.partState = (if s.partState = .stopping ∧ t.inFlight = []
          ∧ ∀ j, (t.aud j).link.state = .idle then .stopped else s.partState))

/-- SEND_EXCHANGE (R121, R122): each exchange of SENDING drives the next byte of OPEN (0xF6, or 0xF5 on a retry), the
header, the sections and, with check mode ON, the check bytes low byte first. One that goes on has sent one byte more
and changes nothing else of the link; after the last byte the link awaits the verdict. A REFUSED taken in any exchange
but the first and the last makes the next one carry SHUT, the frame is dropped and counted, and the link waits; one
taken in the last drops the frame without a SHUT. At which of the two exchanges the drop is counted is the model's
choice (log entry 13, DEDUCED): with the SHUT, not with the REFUSED before it, and at once where the REFUSED comes with
the last byte. A link that finishes under R130 goes on in place of waiting: it is IDLE, or calls for a frame handed on
since, of a show that came back (the model's reading, log entry 14; R130 discards the frame pending at the stop). -/
def Obligations.SendingDrivesTheFrameInOrder : Prop :=
  ∀ (k : Aud) (b : Byte) (f : AirFrame) (s : State), (s.aud k).link.state = .sending →
    (s.aud k).link.frame = some f →
    let held := (s.aud k).link
    let line := (if held.retry then 0xF5#8 else 0xF6#8) :: f.bytes
      ++ (if held.checkOn then [(crc f.bytes).extractLsb' 0 8, (crc f.bytes).extractLsb' 8 8] else [])
    let drive := some (line.getD held.sent 0)
    let dropping := fun (t : State) (out : Option Byte) =>
      (held.finishing = false → (t.aud k).link = { held with
          state := .waiting, retryDue := false, sent := 0, shutDue := false, dropped := held.dropped + 1, out := out })
        ∧ (held.finishing = true → held.next = none → (t.aud k).link = { held with
          state := .idle, frame := none, retry := false, retryDue := false, called := false, sent := 0
          shutDue := false, finishing := false, dropped := held.dropped + 1, out := out })
        ∧ (∀ g, held.finishing = true → held.next = some g → (t.aud k).link = { held with
          state := .calling, frame := some g, next := none, retry := false, retryDue := false, called := false
          sent := 0, shutDue := false, finishing := false, dropped := held.dropped + 1, out := out })
    (held.shutDue = false → held.sent < line.length →
    ∃ t, exec (.sendExchange k b) s = .next t ∧ t.inFlight = s.inFlight
      ∧ t.aud k = { s.aud k with link := (t.aud k).link } ∧ (∀ j, j ≠ k → t.aud j = s.aud j)
      ∧ (held.finishing = false → State.OnlyAud k s t)
      ∧ (b ≠ 0x2D#8 ∨ held.sent = 0 → held.sent + 1 < line.length → (t.aud k).link = { held with
          sent := held.sent + 1, out := drive })
      ∧ (b ≠ 0x2D#8 ∨ held.sent = 0 → held.sent + 1 = line.length → (t.aud k).link = { held with
          state := .awaitingVerdict, sent := 0, out := drive })
      ∧ (b = 0x2D#8 → 0 < held.sent → held.sent + 1 < line.length → (t.aud k).link = { held with
          sent := held.sent + 1, shutDue := true, out := drive })
      ∧ (b = 0x2D#8 → 0 < held.sent → held.sent + 1 = line.length → dropping t drive)) ∧
    (held.shutDue = true →
    ∃ t, exec (.sendExchange k b) s = .next t ∧ t.inFlight = s.inFlight
      ∧ t.aud k = { s.aud k with link := (t.aud k).link } ∧ (∀ j, j ≠ k → t.aud j = s.aud j)
      ∧ (held.finishing = false → State.OnlyAud k s t) ∧ dropping t (some 0xFD#8))

/-- VERDICT (R123, R124, R126, R130): TAKEN waits; CHECK_FAILED of a first attempt with no frame pending makes a retry
due and counts it, any other CHECK_FAILED and a REFUSED drop the frame; another byte with no frame pending reads again,
and with one pending drops the frame as unanswered, the fiftieth in a row setting DOWN and reporting LINK_DOWN, and
calls for the pending one. Nothing else is reported. Of a link that finishes under R130 TAKEN ends the frame and any
other byte drops it, counted, with no retry; the link goes IDLE, or calls for a frame handed on since, of a show that
came back (the model's reading, log entry 14). -/
def Obligations.VerdictWaitsRetriesOrDrops : Prop :=
  ∀ (k : Aud) (b : Byte) (s : State), (s.aud k).link.state = .awaitingVerdict → (s.aud k).link.unanswered ≤ 50 →
    let held := (s.aud k).link
    let other := b ∉ [0x25#8, 0x2B#8, 0x2D#8]
    let told := s.reportAll k (
      if other ∧ held.finishing = false ∧ held.next ≠ none ∧ held.unanswered = 49 then [.linkDown] else [])
    let waits := fun (now : Link) (again : Bool) (retries dropped : Word) => now = { held with
      state := .waiting, retryDue := again, retry := held.retry || again, sent := now.sent, shutDue := now.shutDue
      retries := retries, dropped := dropped, out := some 0#8 }
    ∃ t, exec (.verdict k b) s = .next t ∧ (held.finishing = false → State.OnlyAud k s t)
      ∧ (∀ j, j ≠ k → t.aud j = s.aud j) ∧ t.bindings = s.bindings
      ∧ t.aud k = { s.aud k with link := (t.aud k).link, writer := (told.aud k).writer }
      ∧ t.inFlight = told.inFlight ∧ t.nextTag = told.nextTag
      ∧ (held.finishing = false →
          (b = 0x25#8 → waits (t.aud k).link false held.retries held.dropped)
          ∧ (b = 0x2B#8 → held.retry = false → held.next = none →
            waits (t.aud k).link true (held.retries + 1) held.dropped)
          ∧ (b = 0x2D#8 ∨ (b = 0x2B#8 ∧ (held.retry = true ∨ held.next ≠ none)) →
            waits (t.aud k).link false held.retries (held.dropped + 1))
          ∧ (other → held.next = none → (t.aud k).link = { held with out := some 0#8 })
          ∧ (∀ f, other → held.next = some f → (t.aud k).link = { held with
              state := .calling, frame := some f, next := none, retry := false, retryDue := false, called := false
              sent := 0, shutDue := false, dropped := held.dropped + 1
              unanswered := min 50 (held.unanswered + 1)
              down := held.down || held.unanswered == 49, out := some 0#8 }))
      ∧ (held.finishing = true →
          (let dropped := held.dropped + (if b = 0x25#8 then 0 else 1)
           (held.next = none → (t.aud k).link = { held with
              state := .idle, frame := none, retry := false, retryDue := false, called := false, sent := 0
              shutDue := false, finishing := false, dropped := dropped, out := some 0#8 })
           ∧ (∀ f, held.next = some f → (t.aud k).link = { held with
              state := .calling, frame := some f, next := none, retry := false, retryDue := false, called := false
              sent := 0, shutDue := false, finishing := false, dropped := dropped, out := some 0#8 }))
          ∧ t.partState = (if s.partState = .stopping ∧ s.inFlight = []
              ∧ ∀ j, (t.aud j).link.state = .idle then .stopped else s.partState))

/-! ## Reads that complete -/

/-- ENTRY_READ_COMPLETE (R38, R44, R45): a current entry read fills its slot. A retracted entry, a bad one, a CLEAR
and a caption of a disabled channel leave the slot READY; a caption of an enabled channel leaves it LOADED where its
text is empty, FETCHING with its text read issued where its text lies within PAYLOAD, and READY and bad where it
does not, with a REGION_FAULT of cause LIMIT. Without PAYLOAD it is READY and bad and nothing is reported (the model's
reading, log entry 23). A caption of an enabled channel longer than 192 bytes counts as truncated, once. Nothing else is
counted, reported or issued. -/
def Obligations.EntryReadClassifiesItsSlot : Prop :=
  ∀ (k : Aud) (tag gen : Nat) (a : Access) (d : List Byte) (x : Slot) (before after : List Slot) (s : State),
    s.partState = .running → s.InFlightAs tag a → a.aud = some k → a.purpose = .entryRead gen x.index →
    s.isCurrent a = true → gen = (s.aud k).seq.seekGen → (s.aud k).seq.window = before ++ x :: after →
    x.state = .reading → (∀ y ∈ before ++ after, y.index ≠ x.index) →
    let e := parseEntry (a.received d)
    let channel := e.channel.toNat
    let withdrawn := x.retracted = true ∨ e.retracted = true
    let bad := e.kind ≠ 1#8 ∧ e.kind ≠ 2#8 ∨ 3 < channel ∨ e.finish.toNat ≤ e.start.toNat
    let caption := ¬withdrawn ∧ ¬bad ∧ e.kind = 1#8 ∧ (s.aud k).unit.channels.captions.getLsbD channel = true
    let length := min e.payloadLength.toNat 192
    let within := ∃ p ∈ s.binding k .payload, e.payloadOffset.toNat + length - 1 ≤ p.limit.toNat
    let read := { x with entry := some e }
    let faulted := (s.dropAccess tag).reportAll k (
      if caption ∧ 0 < length ∧ ¬within then (s.binding k .payload).toList.map fun p =>
        .regionFault .payload p.selector .limit e.payloadOffset.toNat
      else [])
    ∃ t y, exec (.entryReadComplete tag (.ok d)) s = .next t ∧ (∀ j, j ≠ k → t.aud j = s.aud j)
      ∧ t.bindings = s.bindings
      ∧ t.aud k = { s.aud k with
          seq := { (s.aud k).seq with
            window := before ++ y :: after
            truncated := (s.aud k).seq.truncated + (if caption ∧ 192 < e.payloadLength.toNat then 1 else 0) }
          writer := (faulted.aud k).writer }
      ∧ y = (if withdrawn then { read with state := .ready, retracted := true }
          else if bad then { read with state := .ready, bad := true }
          else if ¬caption then { read with state := .ready }
          else if length = 0 then { read with state := .loaded, text := some [] }
          else if within then { read with state := .fetching }
          else { read with state := .ready, bad := true })
      ∧ (¬(caption ∧ 0 < length ∧ within) → t.inFlight = faulted.inFlight)
      ∧ (caption → 0 < length → within → (∃ z, t.inFlight = s.inFlight.filter (fun y => y.tag != tag) ++ [z])
          ∧ s.Issued t k .payload e.payloadOffset.toNat length []
            (.textRead gen { epoch := (s.seqEnv k).epoch, index := x.index }))

/-- TEXT_READ_COMPLETE (R46, R47, R42, R144): a current text read. Of a staged caption it makes the slot LOADED with the
text, and one that ends in an error makes it READY and bad with no text. Of a cue already on a screen it gives that cue
its text, with a text-ready notice to the Builder; one that ends in an error counts a bad cue and takes the cue from its
screen, with a removal of cause BAD. Of a cue that is neither it changes nothing. The error is reported as a
REGION_FAULT with cause MEMORY. -/
def Obligations.TextReadLoadsItsSlot : Prop :=
  ∀ (k : Aud) (tag gen : Nat) (a : Access) (d : List Byte) (cue : CueId) (s : State),
    s.partState = .running → s.InFlightAs tag a → a.aud = some k → a.purpose = .textRead gen cue →
    s.isCurrent a = true → gen = (s.aud k).seq.seekGen →
    let q := (s.aud k).seq
    let text := a.received d
    let staged := fun x : Slot => x.index = cue.index ∧ x.state = .fetching ∧ cue.epoch = (s.seqEnv k).epoch
    let faulted := (s.dropAccess tag).reportAll k [.regionFault a.role a.selector .memory a.offset]
    ∃ t u, exec (.textReadComplete tag (.ok d)) s = .next t ∧ exec (.textReadComplete tag .error) s = .next u
      ∧ (∀ j, j ≠ k → t.aud j = s.aud j ∧ u.aud j = s.aud j)
      ∧ t.inFlight = s.inFlight.filter (fun y => y.tag != tag) ∧ u.inFlight = faulted.inFlight
      ∧ t.bindings = s.bindings ∧ u.bindings = s.bindings
      ∧ t.aud k = { s.aud k with seq := (t.aud k).seq, builder := (t.aud k).builder }
      ∧ u.aud k = { s.aud k with
          seq := (u.aud k).seq, builder := (u.aud k).builder, writer := (faulted.aud k).writer }
      ∧ (∀ (before : List Slot) (x : Slot) (after : List Slot), q.window = before ++ x :: after → staged x →
          (∀ y ∈ before ++ after, y.index ≠ x.index) →
          (t.aud k).seq = { q with window := before ++ { x with state := .loaded, text := some text } :: after }
          ∧ (u.aud k).seq = { q with
              window := before ++ { x with state := .ready, bad := true, text := none } :: after }
          ∧ (t.aud k).builder = (s.aud k).builder ∧ (u.aud k).builder = (s.aud k).builder)
      ∧ (∀ ch : Channel, (∀ x ∈ q.window, ¬staged x) → (∃ y ∈ q.active[ch], y.cue = cue) →
          (∀ c : Channel, c ≠ ch → ∀ y ∈ q.active[c], y.cue ≠ cue) →
          (t.aud k).seq = { q with active := (t.aud k).seq.active }
          ∧ (∀ c : Channel, (t.aud k).seq.active[c]
              = q.active[c].map fun y => if y.cue = cue then { y with text := some text } else y)
          ∧ (t.aud k).builder = ((s.seqSendAll k [.textReady cue]).aud k).builder
          ∧ (u.aud k).seq = { q with active := (u.aud k).seq.active, badCues := q.badCues + 1 }
          ∧ (∀ c : Channel, (u.aud k).seq.active[c] = q.active[c].filter fun y => decide (y.cue ≠ cue))
          ∧ (u.aud k).builder = ((s.seqSendAll k [.remove ch cue .bad]).aud k).builder)
      ∧ ((∀ x ∈ q.window, ¬staged x) → (∀ c : Channel, ∀ y ∈ q.active[c], y.cue ≠ cue) →
          t.aud k = s.aud k ∧ (u.aud k).seq = q ∧ (u.aud k).builder = (s.aud k).builder)

/-- SCAN_READ_COMPLETE (R65 to R68): the probe below the cursor chooses the direction. A start after the target
turns the scan BACKWARD with the cursor one lower; a start at or before it turns it FORWARD with the cursor kept.
The batch that follows is the next up to 255 entries of that direction, its reads issued in scan order, or the scan ends
at the end of the list. In a chosen direction a completed read is held, and the entries held from the front of the batch
are examined in order. Each that starts at or before the target (FORWARD) or after it (BACKWARD) moves the cursor by
one; the first that does not, or the cursor's coming to the end of the list, ends the scan and drops the rest of the
batch. No read is issued.
FRAME_BOUNDARY of a SEEKING Sequencer whose clock is not IDLE and does not become lost (R40, R68, R69). With a batch in
the scan, or a lookback issued, it does nothing. With none it issues the probe, or the next batch of at most 256 reads
in the scan's direction, FORWARD where the cursor is at 0; or, the cursor at the end of the list, the scan ends. A seek
in REENTRY, or one that came to it at this update, issues its lookback of at most 64 reads below the cursor, downward.
With the cursor at 0 re-entry completes without a candidate: SEEK_DONE, after the clock's own report (log entry 28),
WALKING, and the refill. -/
def Obligations.ProbeChoosesTheDirection : Prop :=
  (∀ (k : Aud) (tag gen : Nat) (a : Access) (d : List Byte) (sk : Seek) (s : State),
    s.partState = .running → s.InFlightAs tag a → a.aud = some k →
    a.purpose = .scanRead gen ((s.aud k).seq.cursor - 1) → s.isCurrent a = true →
    gen = (s.aud k).seq.seekGen → (s.aud k).seq.state = .seeking → (s.aud k).seq.seek = some sk →
    sk.phase = .scan → sk.direction = .undecided → 1 ≤ (s.aud k).seq.cursor →
    sk.batch = [{ index := (s.aud k).seq.cursor - 1, entry := none }] →
    let start := (parseEntry (a.received d)).start.toNat
    let cursor := (s.aud k).seq.cursor
    ∃ t sk', exec (.scanReadComplete tag (.ok d)) s = .next t ∧ (t.aud k).seq.seek = some sk'
      ∧ sk'.target = sk.target ∧ (t.aud k).seq.state = .seeking
      ∧ (sk.target.toNat < start → sk'.direction = .backward ∧ (t.aud k).seq.cursor = cursor - 1
          ∧ (cursor = 1 → sk'.phase = .reentry)
          ∧ (1 < cursor → sk'.phase = .scan ∧ sk'.batch.map SeekItem.index
              = ((List.range (cursor - 1)).drop (cursor - 1 - 255)).reverse))
      ∧ (start ≤ sk.target.toNat → sk'.direction = .forward ∧ (t.aud k).seq.cursor = cursor
          ∧ (cursor = (s.aud k).seq.listCount → sk'.phase = .reentry)
          ∧ (cursor ≠ (s.aud k).seq.listCount → sk'.phase = .scan ∧ sk'.batch.map SeekItem.index
              = (List.range (min (cursor + 255) (s.aud k).seq.listCount)).drop cursor))
      ∧ (∀ x ∈ sk'.batch, x.entry = none) ∧ (sk'.phase = .reentry → sk'.batch = [])
      ∧ t.aud k = { s.aud k with seq := (t.aud k).seq, writer := (t.aud k).writer }
      ∧ (t.aud k).seq = { (s.aud k).seq with cursor := (t.aud k).seq.cursor, seek := some sk' }
      ∧ sk' = { sk with phase := sk'.phase, direction := sk'.direction, batch := sk'.batch }
      ∧ (∀ j, j ≠ k → t.aud j = s.aud j)
      ∧ (∀ x, s.binding k .cues = some x → 32 + 32 * (s.aud k).seq.listCount ≤ x.limit.toNat + 1 →
          cursor ≤ (s.aud k).seq.listCount →
          (s.dropAccess tag).EntriesRead t k (.scanRead gen) (sk'.batch.map SeekItem.index)
          ∧ (t.aud k).writer = (s.aud k).writer)) ∧
  (∀ (k : Aud) (tag gen index : Nat) (a : Access) (d : List Byte) (sk : Seek) (s : State),
    s.partState = .running → s.InFlightAs tag a → a.aud = some k → a.purpose = .scanRead gen index →
    s.isCurrent a = true → gen = (s.aud k).seq.seekGen → (s.aud k).seq.seek = some sk → sk.phase = .scan →
    sk.direction ≠ .undecided → (∃ x ∈ sk.batch, x.index = index ∧ x.entry = none) →
    (sk.direction = .forward → (s.aud k).seq.cursor + sk.batch.length ≤ (s.aud k).seq.listCount) →
    (sk.direction = .backward → sk.batch.length ≤ (s.aud k).seq.cursor) →
    let q := (s.aud k).seq
    let batch := sk.batch.map fun x =>
      if x.index = index ∧ x.entry = none then { x with entry := some (parseEntry (a.received d)) } else x
    let goesOn := fun e : CueEntry => if sk.direction = .forward then decide (e.start.toNat ≤ sk.target.toNat)
      else decide (sk.target.toNat < e.start.toNat)
    let moved := (batch.takeWhile fun x => x.entry.any goesOn).length
    let cursor := if sk.direction = .forward then q.cursor + moved else q.cursor - moved
    let ended := moved < (batch.takeWhile fun x => x.entry.isSome).length
      ∨ cursor = (if sk.direction = .forward then q.listCount else 0)
    exec (.scanReadComplete tag (.ok d)) s = .next ((s.dropAccess tag).setAud k { s.aud k with seq := { q with
      cursor := cursor
      seek := some (if ended then { sk with phase := .reentry, batch := [] }
        else { sk with batch := batch.drop moved }) } })) ∧
  (∀ (k : Aud) (o : Bool) (sk : Seek) (s : State), (s.aud k).boundaryDue = true → s.partState = .running →
    (s.aud k).unit.showState = .running → (s.aud k).clock.state ≠ .idle →
    ((s.aud k).clock.state ≠ .lost → (s.aud k).clock.silence < (s.aud k).clock.loop.holdover) →
    (s.aud k).seq.state = .seeking → (s.aud k).seq.seek = some sk → (sk.lookback = none → sk.candidates = []) →
    let q := (s.aud k).seq
    let items := fun l : List Nat => l.map fun i => ({ index := i, entry := none } : SeekItem)
    let below := fun n : Nat => ((List.range q.cursor).drop (q.cursor - n)).reverse
    let direction := if sk.direction = .undecided ∧ q.cursor = 0 then .forward else sk.direction
    let next := match direction with
      | .forward => (List.range (min (q.cursor + 256) q.listCount)).drop q.cursor
      | .backward => below 256
      | .undecided => [q.cursor - 1]
    let scanEnds := sk.phase = .scan ∧ sk.batch = []
      ∧ (direction = .forward ∧ q.cursor = q.listCount ∨ direction = .backward ∧ q.cursor = 0)
    let looks := (scanEnds ∨ sk.phase = .reentry) ∧ sk.lookback = none
    let after := if scanEnds then { sk with phase := .reentry, direction := direction, batch := [] } else sk
    let flew := (s.aud k).clock.state = .locked ∧ 10 ≤ (s.aud k).clock.silence
    let fits := (∀ x, s.binding k .showRecord = some x → 511 ≤ x.limit.toNat)
      ∧ (∃ x, s.binding k .cues = some x ∧ 32 + 32 * q.listCount ≤ x.limit.toNat + 1) ∧ q.cursor ≤ q.listCount
    ∃ t, exec (.frameBoundary k o) s = .next t ∧ State.OnlyAud k s t ∧ (t.aud k).builder = (s.aud k).builder
      ∧ (sk.phase = .scan → sk.batch ≠ [] → (t.aud k).seq = q ∧ (fits → s.EntriesRead t k (.scanRead q.seekGen) []))
      ∧ (sk.phase = .reentry → sk.lookback ≠ none →
          (t.aud k).seq = q ∧ (fits → s.EntriesRead t k (.lookbackRead q.seekGen) []))
      ∧ (sk.phase = .scan → sk.batch = [] → ¬scanEnds →
          (t.aud k).seq = { q with seek := some { sk with direction := direction, batch := items next } }
          ∧ (fits → s.EntriesRead t k (.scanRead q.seekGen) next))
      ∧ (looks → 0 < q.cursor →
          (t.aud k).seq = { q with seek := some { after with lookback := some (items (below 64)) } }
          ∧ (fits → s.EntriesRead t k (.lookbackRead q.seekGen) (below 64)))
      ∧ (looks → q.cursor = 0 → q.window = [] →
          (t.aud k).seq = { q with
            state := .walking, seek := none, active := (t.aud k).seq.active
            window := (List.range (min 16 q.listCount)).map fun i =>
              { index := i, state := .reading, retracted := false, bad := false, entry := none, text := none } }
          ∧ (∀ c : Channel, (t.aud k).seq.active[c] = q.active[c])
          ∧ (fits → s.EntriesRead t k (.entryRead q.seekGen) (List.range (min 16 q.listCount))))
      ∧ (fits → (t.aud k).writer = ((s.reportAll k ((if flew then [.clockFlywheel] else [])
          ++ (if looks ∧ q.cursor = 0 then [.seekDone 0 0] else []))).aud k).writer))

/-- LOOKBACK_READ_COMPLETE (R69 to R71): the read of the lookback entry that the others, already held, wait for
completes re-entry. The entries are examined downward, each by the first case of R70 that applies (as `Chosen.next`
reads it), which chooses the candidates. They come onto their screens oldest start first, of one start the lower index
first, with the re-entered mark; the truncated ones are counted. For each, in the same order, the Builder gets a START
request and its text, where it has one, is asked for; SEEK_DONE reports the cursor and their number. The Sequencer
enters WALKING with its cursor kept and the window refilled from it. -/
def Obligations.LastLookbackPlacesTheCandidates : Prop :=
  ∀ (k : Aud) (tag gen index : Nat) (a : Access) (d : List Byte) (sk : Seek) (held : List (Nat × CueEntry))
    (s : State),
    s.partState = .running → s.InFlightAs tag a → a.aud = some k → a.purpose = .lookbackRead gen index →
    s.isCurrent a = true → gen = (s.aud k).seq.seekGen → (s.aud k).seq.seek = some sk → sk.phase = .reentry →
    sk.lookback = some ({ index := index, entry := none }
      :: held.map fun x => { index := x.1, entry := some x.2 }) →
    (s.aud k).seq.Bounded → (s.aud k).seq.window = [] →
    let q := (s.aud k).seq
    let env := s.seqEnv k
    let chosen := ((index, parseEntry (a.received d)) :: held).foldl
      (fun r x => Chosen.next env.mask env.payload sk.target r x.1 x.2)
      { stopped := sk.stopped, candidates := sk.candidates, sent := [] }
    ∃ (t : State) (placed : List Candidate), exec (.lookbackReadComplete tag (.ok d)) s = .next t
      ∧ placed.Perm chosen.candidates
      ∧ placed.Pairwise (fun x y => x.start.toNat < y.start.toNat
          ∨ (x.start.toNat = y.start.toNat ∧ x.index ≤ y.index))
      ∧ (∀ c : Channel, (t.aud k).seq.active[c]
          = (placed.filter fun x => x.channel = c).map (Candidate.onScreen env.epoch))
      ∧ (t.aud k).seq.truncated = q.truncated + BitVec.ofNat 32 (placed.countP fun x => x.truncated)
      ∧ (t.aud k).seq.state = .walking ∧ (t.aud k).seq.seek = none ∧ (t.aud k).seq.cursor = q.cursor
      ∧ (t.aud k).seq.listCount = q.listCount ∧ (t.aud k).seq.badCues = q.badCues
      ∧ (t.aud k).seq.crowded = q.crowded
      ∧ (t.aud k).seq.window.map Slot.index = (List.range (min (q.cursor + 16) q.listCount)).drop q.cursor
      ∧ (∀ y ∈ (t.aud k).seq.window, y.state = .reading)
      ∧ (let sent := chosen.sent
           ++ placed.flatMap (fun x =>
             .start x.channel { epoch := env.epoch, index := x.index } true (decide (x.textLength = 0))
               :: (if x.textLength = 0 then [] else
                 [.readText gen { epoch := env.epoch, index := x.index } x.payloadOffset.toNat x.textLength]))
           ++ [.report (.seekDone q.cursor placed.length)]
           ++ ((List.range (min (q.cursor + 16) q.listCount)).drop q.cursor).map fun i => .readEntry gen i
         let u := (s.dropAccess tag).seqSendAll k sent
         (t.aud k).builder = (u.aud k).builder ∧ (t.aud k).writer = (u.aud k).writer ∧ t.inFlight = u.inFlight)

/-- BLOCK_READ_COMPLETE (R79, R141, R143): a current block read puts its block into its place in block order, and takes
nothing. One that ends in an error or gives up is reported as a REGION_FAULT with cause MEMORY and puts a failed block
into its place; a failed block that is the oldest is taken at once, with the failed ones behind it (the model's reading,
log entry 10). One that is stale by its epoch or its fetch generation changes no ring. -/
def Obligations.BlockReadHoldsTheBlockInPlace : Prop :=
  (∀ (k : Aud) (tag gen : Nat) (name : RingName) (number : Word) (a : Access) (d : List Byte)
    (before after : List RingBlock) (s : State), s.partState = .running → s.InFlightAs tag a → a.aud = some k →
    a.purpose = .blockRead name gen number → s.isCurrent a = true →
    gen = ((s.aud k).mixer.ring name).fetchGen →
    ((s.aud k).mixer.ring name).blocks = before ++ { number := number, state := .reading } :: after →
    (∀ y ∈ before ++ after, y.number ≠ number) → (∀ y ∈ before, y.state ≠ .failed) →
    ∃ t, exec (.blockReadComplete tag (.ok d)) s = .next t
      ∧ ((t.aud k).mixer.ring name).blocks
        = before ++ { number := number, state := .held (parseBlock (a.received d)) } :: after
      ∧ ((t.aud k).mixer.ring name).take = ((s.aud k).mixer.ring name).take
      ∧ ((t.aud k).mixer.ring name).position = ((s.aud k).mixer.ring name).position
      ∧ t.inFlight = s.inFlight.filter (fun y => y.tag != tag) ∧ (t.aud k).seq = (s.aud k).seq
      ∧ (t.aud k).clock = (s.aud k).clock ∧ ∀ j, j ≠ k → t.aud j = s.aud j) ∧
  (∀ (k : Aud) (tag gen : Nat) (name : RingName) (number : Word) (a : Access) (c : Instr)
    (before after : List RingBlock) (s : State), s.partState = .running → s.InFlightAs tag a → a.aud = some k →
    a.purpose = .blockRead name gen number → s.isCurrent a = true → s.Ends a c true →
    gen = ((s.aud k).mixer.ring name).fetchGen →
    ((s.aud k).mixer.ring name).blocks = before ++ { number := number, state := .reading } :: after →
    (∀ y ∈ before ++ after, y.number ≠ number) → (∀ y ∈ before, y.state ≠ .failed) →
    let r := (s.aud k).mixer.ring name
    let left := after.dropWhile fun y => decide (y.state = .failed)
    let faulted := (s.dropAccess tag).reportAll k [.regionFault a.role a.selector .memory a.offset]
    ∃ t, exec c s = .next t ∧ (∀ j, j ≠ k → t.aud j = s.aud j) ∧ t.inFlight = faulted.inFlight
      ∧ t.bindings = s.bindings ∧ t.houseFault = s.houseFault ∧ t.notice = s.notice
      ∧ t.aud k = { s.aud k with mixer := (t.aud k).mixer, writer := (faulted.aud k).writer }
      ∧ (∀ other, other ≠ name → (t.aud k).mixer.ring other = (s.aud k).mixer.ring other)
      ∧ (t.aud k).mixer = { (s.aud k).mixer with
          ringA := (t.aud k).mixer.ringA, ringB := (t.aud k).mixer.ringB, bed := (t.aud k).mixer.bed }
      ∧ (before ≠ [] → (t.aud k).mixer.ring name = { r with
          blocks := before ++ { number := number, state := .failed } :: after })
      ∧ (before = [] → (t.aud k).mixer.ring name = { r with
          blocks := left, take := r.take + BitVec.ofNat 32 (1 + after.length - left.length) })) ∧
  (∀ (k : Aud) (tag gen : Nat) (name : RingName) (number : Word) (a : Access) (d : List Byte) (c : Instr) (s : State),
    s.partState = .running → s.InFlightAs tag a → a.aud = some k → a.purpose = .blockRead name gen number →
    (s.isCurrent a = false ∨ gen ≠ ((s.aud k).mixer.ring name).fetchGen) →
    exec (.blockReadComplete tag (.ok d)) s = .next { s with inFlight := s.inFlight.filter fun y => y.tag != tag } ∧
    (s.Ends a c true →
      exec c s = .next ((s.dropAccess tag).reportAll k [.regionFault a.role a.selector .memory a.offset])))

/-- DESCRIPTOR_READ_COMPLETE of a claim (R134, R136, R137, R153, R155): the descriptor's first failed test refuses with
REGION; a selector in the map refuses with BUSY; a role held or not allowed refuses with ILLEGAL; else the map gains
the binding under the raised epoch and the binding bytes are written. The block that serves the role prepares itself:
an audio ring begins a fresh stream, a report ring is fresh (R190), and a Sequencer rests while its cue list header
is read, for which the batch waits. For every role but CUES the result is TAKEN with the capacity and the epoch. With
a result decided the batch goes on (R153). No refusal changes the map or an epoch. A REGION makes a REGION_FAULT report
with the claimed role and selector, the entry's offset and the cause (R144); one whose descriptor read ends in an error,
or gives up, is refused in the same way, with cause MEMORY. That the header read asks for 4 bytes, and is issued after
the write of the binding bytes, and that the report comes before the result, is the model's reading (log entries 17 and
38). -/
def Obligations.ClaimIsSettledInThreeSteps : Prop :=
  (∀ (k : Aud) (tag : Nat) (a : Access) (bytes : List Byte) (b : Batch) (x : Binding) (role : Role)
    (selector : Byte) (held allowed tagReset : Bool) (s : State),
    s.partState = .running → s.InFlightAs tag a → a.aud = some k → a.purpose = .claimRead →
    (s.aud k).unit.batch = some b → b.phase = .claiming tag role selector held allowed tagReset → b.next < 8 →
    s.binding k .showRecord = some x → 511 ≤ x.limit.toNat → role ≠ .showRecord →
    let d := parseDescriptor (a.received bytes)
    let minimum := match role with
      | .showRecord => 511 | .cues => 31 | .payload => 0 | .reports => 127 | _ => 1023
    let kind := match role with
      | .showRecord => 1#8 | .cues => 2#8 | .payload => 3#8 | .reports => 5#8 | _ => 4#8
    let fit := d.present = true ∧ d.kind = kind ∧ minimum ≤ d.limit.toNat ∧ d.base.toNat % 64 = 0
    let reset := if tagReset then 0x40#8 else 0#8
    let capacity := match role with
      | .payload => d.limit.toNat | .reports => (d.limit.toNat + 1) / 32
      | _ => min ((d.limit.toNat + 1) / 512) 65535
    let bound := fit ∧ (∀ y ∈ s.bindings, y.selector ≠ selector) ∧ held = false ∧ allowed = true
    let cause : Cause := if d.present = false then .notPresent else if d.kind ≠ kind then .wrongKind
      else if d.limit.toNat < minimum then .tooSmall else .misaligned
    let faulted := (s.dropAccess tag).reportAll k [.regionFault role selector cause (16 * selector.toNat)]
    ∃ t, exec (.descriptorReadComplete tag (.ok bytes)) s = .next t ∧ (∀ j, j ≠ k → t.aud j = s.aud j)
      ∧ (t.aud k).clock = (s.aud k).clock ∧ (t.aud k).link = (s.aud k).link
      ∧ (t.aud k).builder = (s.aud k).builder ∧ (t.aud k).unit.showState = (s.aud k).unit.showState
      ∧ (¬(role = .cues ∧ bound) → (s.dropAccess tag).GoesOn t k b)
      ∧ (¬fit → t.bindings = s.bindings ∧ (t.aud k).epochs = (s.aud k).epochs
          ∧ (t.aud k).writer = (faulted.aud k).writer ∧ faulted.inFlight <+: t.inFlight
          ∧ s.ResultIssued t k b.next (0x11#8 ||| reset) (List.replicate 16 0))
      ∧ (fit → (∃ y ∈ s.bindings, y.selector = selector) → t.bindings = s.bindings
          ∧ (t.aud k).epochs = (s.aud k).epochs
          ∧ s.ResultIssued t k b.next (0x21#8 ||| reset) (List.replicate 16 0))
      ∧ (fit → (∀ y ∈ s.bindings, y.selector ≠ selector) → held = true ∨ allowed = false →
          t.bindings = s.bindings ∧ (t.aud k).epochs = (s.aud k).epochs
          ∧ s.ResultIssued t k b.next (0x03#8 ||| reset) (List.replicate 16 0))
      ∧ (fit → (∀ y ∈ s.bindings, y.selector ≠ selector) → held = false → allowed = true →
          (t.aud k).epochs.get role = (s.aud k).epochs.get role + 1
          ∧ t.bindings = s.bindings ++ [
              { selector := selector, aud := k, role := role, epoch := (s.aud k).epochs.get role + 1
                base := d.base, limit := d.limit }]
          ∧ s.TableIssued t (some k) role selector 14 2 [0x80#8 ||| role.code, BitVec.ofNat 8 k.val]
              .bindingWrite
          ∧ (role ≠ .cues → s.ResultIssued t k b.next (0x01#8 ||| reset)
              (leWord (BitVec.ofNat 32 capacity) ++ ((s.aud k).epochs.get role + 1) :: List.replicate 11 0)
              ∧ (t.aud k).seq = (s.aud k).seq)
          ∧ (∀ name : RingName, name.role = role → (t.aud k).mixer.ring name = { (s.aud k).mixer.ring name with
              bound := true, capacity := capacity, take := 0, blocks := [], resync := true, condition := .resting
              fetchGen := ((s.aud k).mixer.ring name).fetchGen + 1 })
          ∧ (role = .reports → (t.aud k).writer = { (s.aud k).writer with
              bound := true, capacity := capacity, writeCount := 0 })
          ∧ (role = .cues → s.binding k .cues = none → (t.aud k).seq.state = .idle ∧ (t.aud k).seq.cursor = 0
              ∧ (t.aud k).seq.window = [] ∧ (t.aud k).seq.seek = none
              ∧ (∀ c : Channel, (t.aud k).seq.active[c] = [])
              ∧ (t.aud k).unit = { (s.aud k).unit with batch := some { b with
                  phase := .counting (s.nextTag + 1) tagReset, outstanding := b.outstanding ++ [s.nextTag] } }
              ∧ ∃ y ∈ t.inFlight, y.tag = s.nextTag + 1 ∧ y.aud = some k ∧ y.role = .cues ∧ y.selector = selector
                ∧ y.epoch = (s.aud k).epochs.cues + 1 ∧ y.address = d.base ∧ y.length = 4 ∧ y.data = []
                ∧ y.purpose = .headerRead))) ∧
  (∀ (k : Aud) (tag : Nat) (a : Access) (c : Instr) (b : Batch) (x : Binding) (role : Role)
    (selector : Byte) (held allowed tagReset : Bool) (s : State),
    s.partState = .running → s.InFlightAs tag a → a.aud = some k → a.purpose = .claimRead → a.role = role →
    a.selector = selector → a.offset = 16 * selector.toNat → s.Ends a c true →
    (s.aud k).unit.batch = some b → b.phase = .claiming tag role selector held allowed tagReset → b.next < 8 →
    s.binding k .showRecord = some x → 511 ≤ x.limit.toNat →
    let faulted := (s.dropAccess tag).reportAll k [.regionFault role selector .memory (16 * selector.toNat)]
    ∃ t, exec c s = .next t ∧ (∀ j, j ≠ k → t.aud j = s.aud j) ∧ t.bindings = s.bindings
      ∧ t.aud k = { s.aud k with
          unit := { (s.aud k).unit with batch := (t.aud k).unit.batch }, writer := (faulted.aud k).writer }
      ∧ faulted.inFlight <+: t.inFlight ∧ (s.dropAccess tag).GoesOn t k b
      ∧ s.ResultIssued t k b.next (0x11#8 ||| if tagReset then 0x40#8 else 0#8) (List.replicate 16 0))

/-- DESCRIPTOR_READ_COMPLETE of the start-up scan and of the DARK check (R142, R145 to R147, R182). In the scan a
present descriptor gets its binding bytes cleared; one of selectors 1 to 24 that is fit is bound to its auditorium
under the raised epoch, its bound bytes written after the clearing ones, whose write they await; one that is not is
not bound and not reported. The last access of the scan, a read of a descriptor that is not present or a write, makes
the part RUNNING with exactly the auditoriums that hold a show record HALTED. In RUNNING, a fit descriptor of a DARK
auditorium is bound and the auditorium becomes HALTED with its defaults; an unfit one leaves it DARK and is not
reported.
A memory error of any access of the scan, a give-up and a write that the host refuses among them, fails the scan (R143,
R145, R183): HOUSE_FAULT and NOTICE are set, the map is emptied, no further access is issued and nothing is reported, no
auditorium changes, and the part is STOPPING, or STOPPED where nothing else is in flight and every link is IDLE (R184).
A DARK check whose read fails leaves the auditorium as it is, without a report, and sets HOUSE_FAULT and
NOTICE (R146). -/
def Obligations.DescriptorsBringShowsUp : Prop :=
  (∀ (tag : Nat) (a : Access) (bytes : List Byte) (s : State), s.partState = .scanning → s.inFlight = [a] →
    a.tag = tag → a.aud = none → (∀ k, (s.aud k).unit.showState = .dark) →
    let running := fun t : State => t.partState = .running ∧ t.inFlight = [] ∧ t.bindings = s.bindings
      ∧ ∀ k, (t.aud k).unit.showState = (if (s.binding k .showRecord).isSome then .halted else .dark)
    (a.purpose = .startScanRead → (parseDescriptor (a.received bytes)).present = false →
      ∃ t, exec (.descriptorReadComplete tag (.ok bytes)) s = .next t ∧ running t) ∧
    (a.purpose = .startScanWrite → a.answer ≠ some false →
      ∃ t, exec (.writeComplete tag true) s = .next t ∧ running t)) ∧
  (∀ (tag : Nat) (a : Access) (bytes : List Byte) (s : State), s.partState = .scanning → s.InFlightAs tag a →
    a.aud = none → a.purpose = .startScanRead →
    let d := parseDescriptor (a.received bytes)
    let owned := 1 ≤ a.selector.toNat ∧ a.selector.toNat ≤ 24
    let fit := d.present = true ∧ d.kind = 1#8 ∧ 511 ≤ d.limit.toNat ∧ d.base.toNat % 64 = 0
    let rest := s.inFlight.filter fun y => y.tag != tag
    let written := fun (y : Access) (bytes : List Byte) => y.aud = none ∧ y.role = .showRecord
      ∧ y.selector = a.selector ∧ y.address = s.latchedBase + BitVec.ofNat 64 (16 * a.selector.toNat + 14)
      ∧ y.length = 2 ∧ y.data = bytes ∧ y.issued = s.houseTime ∧ y.purpose = .startScanWrite
    ∃ t, exec (.descriptorReadComplete tag (.ok bytes)) s = .next t
      ∧ t.notice = s.notice ∧ t.houseFault = s.houseFault
      ∧ (d.present = false → rest ≠ [] →
          t.partState = .scanning ∧ t.inFlight = rest ∧ t.bindings = s.bindings ∧ ∀ k, t.aud k = s.aud k)
      ∧ (d.present = true → ¬(fit ∧ owned) → t.partState = .scanning ∧ t.bindings = s.bindings
          ∧ (∀ k, t.aud k = s.aud k)
          ∧ ∃ y, t.inFlight = rest ++ [y] ∧ y.tag = s.nextTag ∧ written y [0, 0])
      ∧ (∀ k : Aud, fit → a.selector.toNat = k.val + 1 → t.partState = .scanning
          ∧ t.bindings = s.bindings ++ [
              { selector := a.selector, aud := k, role := .showRecord
                epoch := (s.aud k).epochs.showRecord + 1, base := d.base, limit := d.limit }]
          ∧ t.aud k = { s.aud k with epochs := { (s.aud k).epochs with
              showRecord := (s.aud k).epochs.showRecord + 1 } }
          ∧ (∀ j, j ≠ k → t.aud j = s.aud j)
          ∧ ∃ x y, t.inFlight = rest ++ [x, y] ∧ x.tag = s.nextTag ∧ written x [0, 0]
            ∧ y.tag = s.nextTag + 1 ∧ written y [0x81#8, BitVec.ofNat 8 k.val] ∧ t.mustWait y = true)) ∧
  (∀ (k : Aud) (tag : Nat) (a : Access) (bytes : List Byte) (s : State), s.partState = .running →
    s.InFlightAs tag a → a.aud = some k → a.purpose = .darkCheckRead → a.selector = BitVec.ofNat 8 (k.val + 1) →
    (s.aud k).unit.showState = .dark →
    let d := parseDescriptor (a.received bytes)
    let fit := d.present = true ∧ d.kind = 1#8 ∧ 511 ≤ d.limit.toNat ∧ d.base.toNat % 64 = 0
    ∃ t, exec (.descriptorReadComplete tag (.ok bytes)) s = .next t
      ∧ (fit → (t.aud k).unit.showState = .halted ∧ (t.aud k).unit.firstHead = false
          ∧ (t.aud k).unit.batch = none ∧ (t.aud k).unit.tag = .empty
          ∧ (t.aud k).clock.loop.epsMax = 8388 ∧ (t.aud k).mixer.settings.gn = 32768
          ∧ (t.aud k).unit.channels.copies = 1 ∧ (t.aud k).writer.missed = 0
          ∧ (t.aud k).epochs.showRecord = (s.aud k).epochs.showRecord + 1
          ∧ t.bindings = s.bindings ++ [
              { selector := a.selector, aud := k, role := .showRecord
                epoch := (s.aud k).epochs.showRecord + 1, base := d.base, limit := d.limit }]
          ∧ s.TableIssued t (some k) .showRecord a.selector 14 2 [0x81#8, BitVec.ofNat 8 k.val] .bindingWrite)
      ∧ (¬fit → t.aud k = s.aud k ∧ t.bindings = s.bindings
          ∧ t.inFlight = s.inFlight.filter (fun y => y.tag != tag))) ∧
  (∀ (tag : Nat) (a : Access) (c : Instr) (s : State), s.partState = .scanning → s.InFlightAs tag a →
    a.aud = none → s.Ends a c true →
    let rest := s.inFlight.filter fun y => y.tag != tag
    ∃ t, exec c s = .next t
      ∧ t = { s with
          inFlight := t.inFlight, bindings := [], houseFault := true, notice := true
          messages := s.messages + (if s.notice = false ∧ s.noticeEn = true then 1 else 0)
          partState := if rest = [] ∧ ∀ k, (s.aud k).link.state = .idle then .stopped else .stopping }
      ∧ t.inFlight.map (Access.unseeing tag) = rest.map (Access.unseeing tag)) ∧
  (∀ (k : Aud) (tag : Nat) (a : Access) (c : Instr) (s : State), s.partState = .running → s.InFlightAs tag a →
    a.aud = some k → a.purpose = .darkCheckRead → s.Ends a c true →
    exec c s = .next { s with
      inFlight := s.inFlight.filter (fun y => y.tag != tag), houseFault := true, notice := true
      messages := s.messages + (if s.notice = false ∧ s.noticeEn = true then 1 else 0) })

/-- CUE_LIST_HEADER_READ_COMPLETE (R36, R137): the list count is the least of the header's count, what the region
holds and 65,535, and the BIND's reply carries it with the CUES epoch. The batch goes on (R153). Where the read ends in
an error, or gives up, the binding stands and the result is TAKEN all the same, with a list count of 0 and a reply of
0, and a REGION_FAULT with role CUES and cause MEMORY is reported (R143, R144). That the report comes before the result
is the model's choice (log entry 38). -/
def Obligations.HeaderReadLatchesTheListCount : Prop :=
  (∀ (k : Aud) (tag : Nat) (a : Access) (bytes : List Byte) (b : Batch) (x cues : Binding) (tagReset : Bool)
    (s : State), s.partState = .running → s.InFlightAs tag a → a.aud = some k → a.purpose = .headerRead →
    s.isCurrent a = true → (s.aud k).unit.batch = some b → b.phase = .counting tag tagReset → b.next < 8 →
    s.binding k .showRecord = some x → 511 ≤ x.limit.toNat → s.binding k .cues = some cues →
    let count := min (min (wordAt (a.received bytes) 0).toNat ((cues.limit.toNat - 31) / 32)) 65535
    ∃ t, exec (.cueListHeaderReadComplete tag (.ok bytes)) s = .next t ∧ (t.aud k).seq.listCount = count
      ∧ s.ResultIssued t k b.next (0x01#8 ||| (if tagReset then 0x40#8 else 0#8))
          (leWord (BitVec.ofNat 32 count) ++ (s.aud k).epochs.cues :: List.replicate 11 0)
      ∧ (s.dropAccess tag).GoesOn t k b
      ∧ t.aud k = { s.aud k with
          seq := { (s.aud k).seq with listCount := count }
          unit := { (s.aud k).unit with batch := (t.aud k).unit.batch } }
      ∧ t.bindings = s.bindings ∧ ∀ j, j ≠ k → t.aud j = s.aud j) ∧
  (∀ (k : Aud) (tag : Nat) (a : Access) (c : Instr) (b : Batch) (x cues : Binding) (tagReset : Bool)
    (s : State), s.partState = .running → s.InFlightAs tag a → a.aud = some k → a.purpose = .headerRead →
    a.role = .cues → a.selector = cues.selector → a.offset = 0 → s.Ends a c true →
    s.isCurrent a = true → (s.aud k).unit.batch = some b → b.phase = .counting tag tagReset → b.next < 8 →
    s.binding k .showRecord = some x → 511 ≤ x.limit.toNat → s.binding k .cues = some cues →
    let faulted := (s.dropAccess tag).reportAll k [.regionFault .cues cues.selector .memory 0]
    ∃ t, exec c s = .next t ∧ (∀ j, j ≠ k → t.aud j = s.aud j) ∧ t.bindings = s.bindings
      ∧ s.ResultIssued t k b.next (0x01#8 ||| (if tagReset then 0x40#8 else 0#8))
          ([0, 0, 0, 0, (s.aud k).epochs.cues] ++ List.replicate 11 0)
      ∧ faulted.inFlight <+: t.inFlight ∧ (s.dropAccess tag).GoesOn t k b
      ∧ t.aud k = { s.aud k with
          seq := { (s.aud k).seq with listCount := 0 }
          unit := { (s.aud k).unit with batch := (t.aud k).unit.batch }, writer := (faulted.aud k).writer })

/-- HEAD_READ_COMPLETE (R150 to R152, R154): the fill counts and the report read count are handed on. The first head
read adopts the generation and writes the first snapshot; a later one begins a batch where the generation differs, none
is in flight and the read was not issued before the latest acknowledgement completed; it takes nothing otherwise. -/
def Obligations.HeadReadAdoptsOrBeginsABatch : Prop :=
  ∀ (k : Aud) (tag : Nat) (a : Access) (bytes : List Byte) (x : Binding) (s : State), s.partState = .running →
    s.InFlightAs tag a → a.aud = some k → a.purpose = .headRead → s.isCurrent a = true →
    s.binding k .showRecord = some x → 511 ≤ x.limit.toNat →
    let generation := wordAt (a.received bytes) 0
    ∃ t, exec (.headReadComplete tag (.ok bytes)) s = .next t ∧ (∀ j, j ≠ k → t.aud j = s.aud j)
      ∧ (t.aud k).mixer.ringA.fill = wordAt (a.received bytes) 4
      ∧ (t.aud k).mixer.ringB.fill = wordAt (a.received bytes) 8
      ∧ (t.aud k).mixer.bed.fill = wordAt (a.received bytes) 12
      ∧ (t.aud k).writer.readCount = wordAt (a.received bytes) 16
      ∧ (t.aud k).unit.showState = (s.aud k).unit.showState
      ∧ ((s.aud k).unit.firstHead = false → (t.aud k).unit = { (s.aud k).unit with
            ackGeneration := generation, firstHead := true }
          ∧ s.Issued t k .showRecord 320 192 (snapshotBytes (t.aud k)) .snapshotWrite)
      ∧ ((s.aud k).unit.firstHead = true →
          generation = (s.aud k).unit.ackGeneration ∨ (s.aud k).unit.batch ≠ none ∨ tag < (s.aud k).unit.headFrom →
          (t.aud k).unit = (s.aud k).unit ∧ t.inFlight = s.inFlight.filter (fun y => y.tag != tag))
      ∧ ((s.aud k).unit.firstHead = true → generation ≠ (s.aud k).unit.ackGeneration →
          (s.aud k).unit.batch = none → (s.aud k).unit.headFrom ≤ tag → (t.aud k).unit = { (s.aud k).unit with
            batch := some { generation := generation, slots := [], next := 0, phase := .reading,
                            outstanding := [] } }
          ∧ s.Issued t k .showRecord 64 256 [] .slotRead)

/-- SLOT_READ_COMPLETE (R152, R153): the batch holds the host bytes of the eight slots, kind and arguments, as read.
With a directive in slot 0 the batch comes to it; with slot 0 NONE nothing is taken, result 0 is written into all eight
slots, and the batch waits for those writes. -/
def Obligations.SlotReadTakesSlotZeroOrEnds : Prop :=
  ∀ (k : Aud) (tag : Nat) (a : Access) (bytes : List Byte) (b : Batch) (x : Binding) (s : State),
    s.partState = .running → s.InFlightAs tag a → a.aud = some k → a.purpose = .slotRead →
    s.isCurrent a = true → (s.aud k).unit.batch = some b → b.phase = .reading →
    s.binding k .showRecord = some x → 511 ≤ x.limit.toNat →
    let read := a.received bytes
    let rest := s.inFlight.filter fun y => y.tag != tag
    ∃ t b', exec (.slotReadComplete tag (.ok bytes)) s = .next t ∧ (∀ j, j ≠ k → t.aud j = s.aud j)
      ∧ t.aud k = { s.aud k with unit := { (s.aud k).unit with batch := some b' } }
      ∧ b' = { b with slots := b'.slots, next := 0, phase := b'.phase, outstanding := b'.outstanding }
      ∧ b'.slots.length = 8 ∧ (∀ slot ∈ b'.slots, slot.length = 15)
      ∧ (∀ n, n < 8 → ∀ i, i < 15 → byteAt (b'.slots.getD n []) i = byteAt read (32 * n + i))
      ∧ (byteAt read 0 ≠ 0#8 → b'.phase = .taking ∧ b'.outstanding = b.outstanding ∧ t.inFlight = rest)
      ∧ (byteAt read 0 = 0#8 → b'.phase = .ending
          ∧ (∀ n, n < 8 → s.Issued t k .showRecord (64 + 32 * n + 15) 1 [0] .resultWrite)
          ∧ ((t.inFlight.drop rest.length).map Access.offset).Perm ((List.range 8).map fun n => 64 + 32 * n + 15)
          ∧ b'.outstanding = b.outstanding ++ (t.inFlight.drop rest.length).map Access.tag)

/-! ## Memory errors and writes -/

/-- R143, R148, R179: an access of the show record that ends in a memory error, be it the head read, the slot read, a
snapshot, a result with its reply or the acknowledgement, completed with an error, refused by the host, or a read that
gives up, is reported first, and then its auditorium becomes DARK and HOUSE_FAULT and NOTICE are set. Batch, tag state,
screens, blocks, air queue and records are empty, the clock is IDLE, the list count 0, every ring and the report ring
unbound, the bindings of the auditorium removed, and the completions of the batch's accesses still in flight are to be
discarded. The pending frame is discarded and counted and the one in flight finished as at a part stop (R130, as
`Link.FinishesAs` says). Settings and counters keep their values. A failed access of an abandoned batch, a stale read,
and any of an auditorium that is DARK, is reported and changes nothing else (R141; the model's reading, log entry 20).
READ_GIVE_UP of an access younger than 192 house ticks does nothing. -/
def Obligations.HeadReadGivingUpMakesTheShowDark : Prop :=
  (∀ (k : Aud) (tag : Nat) (a : Access) (c : Instr) (s : State), s.partState = .running → s.InFlightAs tag a →
    a.aud = some k → a.purpose ∈ [.headRead, .slotRead, .resultWrite, .snapshotWrite, .ackWrite] →
    s.Ends a c true →
    let held := s.aud k
    let acts := a.live = true ∧ (a.data = [] → s.isCurrent a = true) ∧ held.unit.showState ≠ .dark
    let faulted := (s.dropAccess tag).reportAll k [.regionFault a.role a.selector .memory a.offset]
    let ofBatch := fun y : Access => y.aud == some k && [Purpose.slotRead, .resultWrite, .ackWrite].contains y.purpose
    let ring := fun r : Ring =>
      { r with bound := false, blocks := [], fetchGen := r.fetchGen + 1, resync := true, condition := .resting }
    ∃ t, exec c s = .next t ∧ (∀ j, j ≠ k → t.aud j = s.aud j)
      ∧ (acts → t = { faulted with
            inFlight := t.inFlight, auds := t.auds, houseFault := true, notice := true
            bindings := s.bindings.filter fun b => b.aud != k
            messages := s.messages + (if s.notice = false ∧ s.noticeEn = true then 1 else 0) }
          ∧ t.inFlight.map (Access.unseeing tag)
            = faulted.inFlight.map (fun y => { y.unseeing tag with live := y.live && !ofBatch y })
          ∧ t.aud k = { held with
              clock := if held.clock.state = .idle then held.clock else { held.clock with
                state := .idle, showTime := 0, fraction := 0, eps := 0, slew := 0, e1 := 0, e2 := 0, acquire := 0
                silence := 0, tally := 0 }
              seq := { held.seq with
                state := .idle, cursor := 0, listCount := 0, window := [], seek := none
                seekGen := held.seq.seekGen + 1, listEnd := false, active := (t.aud k).seq.active }
              mixer := { held.mixer with
                ringA := ring held.mixer.ringA, ringB := ring held.mixer.ringB, bed := ring held.mixer.bed
                gainA := held.mixer.settings.gb.toNat, gainB := held.mixer.settings.gb.toNat }
              builder := { held.builder with queue := [], records := [], closing := 0 }
              link := (t.aud k).link
              unit := { held.unit with showState := .dark, firstHead := false, batch := none, tag := .empty }
              writer := { (faulted.aud k).writer with bound := false } }
          ∧ (∀ ch : Channel, (t.aud k).seq.active[ch] = []) ∧ held.link.FinishesAs (t.aud k).link)
      ∧ (¬acts → t = { faulted with inFlight := t.inFlight }
          ∧ t.inFlight.map (Access.unseeing tag) = faulted.inFlight.map (Access.unseeing tag))) ∧
  (∀ (tag : Nat) (a : Access) (s : State), s.InFlightAs tag a → (s.houseTime - a.issued).toNat < 192 →
    exec (.readGiveUp tag) s = .next s)

/-- R48, R65, R69, R143, R189: an entry read, a scan read in the phase SCAN or a lookback read in the phase REENTRY,
each current by epoch and generation, that ends in an error or gives up faults the Sequencer: FAULTED, screens, window
and seek empty, the generation changed, the cursor kept. The Report Writer is asked for a REGION_FAULT with cause
MEMORY and then a SEQUENCER_FAULT with the offset of the entry, and the Builder for the removals and CLEARs of the
emptied screens. Any other such read makes the REGION_FAULT alone and changes no other block (R42, R141). -/
def Obligations.FailedEntryReadFaultsTheSequencer : Prop :=
  ∀ (k : Aud) (tag gen index : Nat) (a : Access) (c : Instr) (s : State), s.partState = .running →
    s.InFlightAs tag a → a.aud = some k →
    a.purpose ∈ [.entryRead gen index, .scanRead gen index, .lookbackRead gen index] → s.Ends a c true →
    let q := (s.aud k).seq
    let phase := q.seek.map Seek.phase
    let faults := s.isCurrent a = true ∧ gen = q.seekGen ∧ (a.purpose = .entryRead gen index
      ∨ (a.purpose = .scanRead gen index ∧ phase = some .scan)
      ∨ (a.purpose = .lookbackRead gen index ∧ phase = some .reentry))
    let reported := (s.dropAccess tag).reportAll k [.regionFault a.role a.selector .memory a.offset]
    let u := reported.seqSendAll k (clearedScreens (s.aud k).unit.channels.captions q.active
      ++ [.report (.sequencerFault (32 + 32 * index))])
    ∃ t, exec c s = .next t ∧ t.partState = .running ∧ t.bindings = s.bindings ∧ t.houseFault = s.houseFault
      ∧ t.notice = s.notice ∧ t.messages = s.messages ∧ (∀ j, j ≠ k → t.aud j = s.aud j)
      ∧ (faults → (∀ ch : Channel, (t.aud k).seq.active[ch] = []) ∧ t.inFlight = u.inFlight
          ∧ t.aud k = { s.aud k with
              seq := { q with
                state := .faulted, window := [], seek := none, seekGen := q.seekGen + 1
                active := (t.aud k).seq.active }
              builder := (u.aud k).builder, writer := (u.aud k).writer })
      ∧ (¬faults → t = reported)

/-- WRITE_COMPLETE (R154): the last write a batch that has taken its slots waits for sets the acknowledgement
generation and issues its write over offsets 320 to 323; an earlier one only leaves the rest to wait for. The writes are
those of results and replies, of binding bytes and of RETRACTED flags. One of the last two sorts counts also where it
fails, once that is reported as a REGION_FAULT with cause MEMORY (R143).
The order of effects at a common byte (R142). A write ends only after the accesses issued before it that touch a byte in
common: while one of these is in flight the host's answer to it is kept, and nothing else changes; when its turn has
come the part posts the command that ends it. That an early answer is kept in this way is the model's choice (log entry
36). A read made while writes are in flight returns, at each byte, the value of the latest of them that writes that
byte and has not failed, and the host's value where there is none. That a later read does not see a write whose answer
is an error is R174's word for flag writes alone; that no read sees any such write, a read already in flight among them,
is the model's choice (log entry 7). -/
def Obligations.WritesEndInTurnAndTheLastAcknowledges : Prop :=
  (∀ (k : Aud) (tag : Nat) (a : Access) (c : Instr) (failed : Bool) (b : Batch) (x : Binding) (s : State),
    s.partState = .running → s.InFlightAs tag a → a.aud = some k →
    a.purpose ∈ [.resultWrite, .bindingWrite, .flagWrite] → (a.purpose = .resultWrite → failed = false) →
    s.Ends a c failed → (s.aud k).unit.batch = some b → s.binding k .showRecord = some x → 511 ≤ x.limit.toNat →
    let left := b.outstanding.filter (fun y => y != tag)
    let told := (s.dropAccess tag).reportAll k
      (if failed then [.regionFault a.role a.selector .memory a.offset] else [])
    ∃ t, exec c s = .next t ∧ (∀ j, j ≠ k → t.aud j = s.aud j) ∧ t.bindings = s.bindings
      ∧ t.houseFault = s.houseFault ∧ t.notice = s.notice
      ∧ t.aud k = { s.aud k with unit := (t.aud k).unit, writer := (told.aud k).writer }
      ∧ (t.inFlight.take told.inFlight.length).map (Access.unseeing tag) = told.inFlight.map (Access.unseeing tag)
      ∧ (b.phase = .ending → left = [] →
          (t.aud k).unit = { (s.aud k).unit with
            ackGeneration := b.generation, batch := some { b with outstanding := [], phase := .acking } }
          ∧ t.inFlight.length = told.inFlight.length + 1
          ∧ s.Issued t k .showRecord 320 4 (leWord b.generation) .ackWrite)
      ∧ (b.phase ≠ .ending ∨ left ≠ [] →
          (t.aud k).unit = { (s.aud k).unit with batch := some { b with outstanding := left } }
          ∧ t.inFlight.length = told.inFlight.length)) ∧
  (∀ (tag : Nat) (ok : Bool) (a y : Access) (c : Instr) (s : State), s.InFlightAs tag a →
    (c, a.purpose) ∈ [(.writeComplete tag ok, .resultWrite), (.writeComplete tag ok, .snapshotWrite),
      (.writeComplete tag ok, .flagWrite), (.writeComplete tag ok, .bindingWrite),
      (.writeComplete tag ok, .startScanWrite), (.ackWriteComplete tag ok, .ackWrite),
      (.reportEntryWriteComplete tag ok, .reportWrite)] →
    y ∈ s.inFlight → y.tag < tag → y.CommonByte a →
    ∃ t, exec c s = .next t ∧ t = { s with inFlight := t.inFlight }
      ∧ t.inFlight.map Access.tag = s.inFlight.map Access.tag
      ∧ ∀ z ∈ t.inFlight, ∃ w ∈ s.inFlight,
          z = { w with answer := if w.tag = tag then some (a.answer.getD ok) else w.answer, forwards := z.forwards }
          ∧ z.forwards = (if a.answer.getD ok then w.forwards else w.forwards.filter fun f => f.writer != tag)) ∧
  (∀ (a : Access) (ok : Bool) (s : State), s.pending = [] → a ∈ s.inFlight → a.answer = some ok →
    (∀ y ∈ s.inFlight, y.tag < a.tag → ¬y.CommonByte a) →
    ∃ t, step s = .next t ∧ (∀ k, t.aud k = s.aud k) ∧ t.inFlight = s.inFlight ∧
      (match a.purpose with
        | .ackWrite => .ackWriteComplete a.tag ok
        | .reportWrite => .reportEntryWriteComplete a.tag ok
        | _ => .writeComplete a.tag ok) ∈ t.pending) ∧
  (∀ (k : Aud) (role : Role) (offset length : Nat) (purpose : Purpose) (x : Binding) (s : State),
    s.binding k role = some x → offset + length ≤ x.limit.toNat + 1 → length ≤ 512 →
    (∀ w ∈ s.inFlight, w.data.length ≤ 512) →
    ∃ a, (s.access k role offset length [] purpose).1.inFlight = s.inFlight ++ [a]
      ∧ ∀ (d : List Byte) (i : Nat), i < length →
        let place := fun w : Access => (x.base + BitVec.ofNat 64 offset + BitVec.ofNat 64 i - w.address).toNat
        (a.received d).getD i 0
          = match (s.inFlight.filter fun w => w.answer ≠ some false ∧ place w < w.data.length).getLast? with
            | some w => w.data.getD (place w) 0
            | none => d.getD i 0)

/-- ACK_WRITE_COMPLETE (R154, R180): the batch is no longer in flight and NOTICE is set, which sends one message
where it was clear and NOTICE_EN is 1. A head read issued before that, and completing after it, begins no batch even
where the generation has changed: the next batch begins at the next frame boundary at the earliest.
REPORT_ENTRY_WRITE_COMPLETE (R188, R143): a report's entry write that completes sets NOTICE; one that fails is
counted missed, is not reported and leaves NOTICE. Either write in its turn (R142). -/
def Obligations.AckAndReportWritesSetNotice : Prop :=
  (∀ (k : Aud) (tag : Nat) (a : Access) (s : State), s.partState = .running → s.InFlightAs tag a →
    a.aud = some k → a.purpose = .ackWrite → a.live = true → s.InTurn a →
    ∃ t, exec (.ackWriteComplete tag true) s = .next t
      ∧ t.aud k = { s.aud k with unit := { (s.aud k).unit with batch := none, headFrom := s.nextTag } }
      ∧ t.nextTag = s.nextTag ∧ t.notice = true
      ∧ t.messages = s.messages + (if s.notice = false ∧ s.noticeEn = true then 1 else 0)
      ∧ t.inFlight = s.inFlight.filter (fun y => y.tag != tag) ∧ t.bindings = s.bindings
      ∧ t.houseFault = s.houseFault ∧ (∀ j, j ≠ k → t.aud j = s.aud j)
      ∧ ∀ (earlier : Nat) (h : Access) (bytes : List Byte), s.InFlightAs earlier h → h.aud = some k →
          h.purpose = .headRead → earlier < s.nextTag → s.isCurrent h = true → (s.aud k).unit.firstHead = true →
          ∃ u, exec (.headReadComplete earlier (.ok bytes)) t = .next u ∧ (u.aud k).unit = (t.aud k).unit
            ∧ u.inFlight = t.inFlight.filter (fun y => y.tag != earlier)) ∧
  (∀ (k : Aud) (tag : Nat) (a : Access) (s : State), s.partState = .running → s.InFlightAs tag a →
    a.aud = some k → a.purpose = .reportWrite → (∀ y ∈ s.inFlight, y.tag < tag → ¬y.CommonByte a) →
    a.answer = none →
    (∃ t, exec (.reportEntryWriteComplete tag true) s = .next t ∧ t.notice = true
      ∧ t.messages = s.messages + (if s.notice = false ∧ s.noticeEn = true then 1 else 0)
      ∧ t.houseFault = s.houseFault ∧ t.bindings = s.bindings
      ∧ (∀ j, t.aud j = s.aud j) ∧ t.inFlight = s.inFlight.filter (fun y => y.tag != tag)) ∧
    (∃ t, exec (.reportEntryWriteComplete tag false) s = .next t ∧ t.notice = s.notice
      ∧ t.messages = s.messages ∧ t.houseFault = s.houseFault ∧ t.bindings = s.bindings
      ∧ t.aud k = { s.aud k with writer := { (s.aud k).writer with missed := (s.aud k).writer.missed + 1 } }
      ∧ t.nextTag = s.nextTag ∧ ∀ j, j ≠ k → t.aud j = s.aud j))

/-- R187: a report of a RUNNING part is appended where the auditorium's ring is bound and has room: its entry carries
the write count, the house time, the kind and the auditorium, lies at (write count mod capacity)·32, and the write
count rises by 1. Else it is counted missed, also of a DARK auditorium (the model's reading, log entry 25). -/
def Obligations.ReportIsAppendedOrMissed : Prop :=
  ∀ (k : Aud) (r : Report) (s : State), s.partState = .running →
    let w := (s.aud k).writer
    (∀ x, w.bound = true → (w.writeCount - w.readCount).toNat < w.capacity →
      s.binding k .reports = some x → w.capacity * 32 ≤ x.limit.toNat + 1 →
      s.Issued (s.report k r) k .reports (w.writeCount.toNat % w.capacity * 32) 32
          (leWord w.writeCount ++ leWord s.houseTime ++ [r.code, BitVec.ofNat 8 k.val, 0, 0]
            ++ padTo 20 r.detail) .reportWrite
        ∧ (s.report k r).aud k = { s.aud k with writer := { w with writeCount := w.writeCount + 1 } }
        ∧ State.OnlyAud k s (s.report k r)) ∧
    (w.bound = false ∨ w.capacity ≤ (w.writeCount - w.readCount).toNat →
      (s.report k r).aud k = { s.aud k with writer := { w with missed := w.missed + 1 } }
        ∧ State.OnlyAud k s (s.report k r) ∧ (s.report k r).inFlight = s.inFlight)

/-! ## Directives -/

/-- BIND (R136, R157): a bad role or selector is refused with PARAMETER; otherwise the descriptor is read and the
batch waits for it with the two facts: whether the role is held, and whether the show state allows it. Of a refused one
the batch goes on (R153). -/
def Obligations.BindReadsTheDescriptorOrIsRefused : Prop :=
  ∀ (k : Aud) (role selector : Byte) (b : Batch) (s : State), s.Standing k (.bind k role selector) b →
    let reset := if (s.aud k).unit.tag = .empty then 0#8 else 0x40#8
    let good := 2 ≤ role.toNat ∧ role.toNat ≤ 7 ∧ 24 < selector.toNat ∧ selector.toNat < s.latchedCount.toNat
    ∃ t, exec (.bind k role selector) s = .next t ∧ State.OnlyAud k s t ∧ (t.aud k).unit.tag = .empty
      ∧ (t.aud k).epochs = (s.aud k).epochs
      ∧ t.aud k = { s.aud k with unit := { (s.aud k).unit with tag := .empty, batch := (t.aud k).unit.batch } }
      ∧ (¬good → s.ResultIssued t k b.next (0x05#8 ||| reset) (List.replicate 16 0) ∧ s.GoesOn t k b)
      ∧ (good → ∃ r tag, r.code = role ∧ t.inFlight.length = s.inFlight.length + 1
          ∧ s.TableIssued t (some k) r selector 0 16 [] .claimRead
          ∧ (t.aud k).unit.batch = some
            { b with
              phase := .claiming tag r selector (s.holdsRole k r)
                (if role = 2#8 ∨ role = 3#8 then decide ((s.aud k).unit.showState = .halted) else true)
                (decide ((s.aud k).unit.tag ≠ .empty)) }
          ∧ tag = s.nextTag)

/-- RELEASE (R138, R158): a bad role gives PARAMETER; a role not held, or CUES and PAYLOAD outside HALTED, gives
ILLEGAL; otherwise the binding leaves the map, its binding bytes are cleared, the Sequencer's list count becomes 0
for CUES, an audio or report ring is unbound, and the epoch keeps its value. The batch goes on (R153), and waits for the
binding bytes' write. -/
def Obligations.ReleaseRemovesTheBinding : Prop :=
  ∀ (k : Aud) (role : Byte) (b : Batch) (s : State), s.Standing k (.release k role) b →
    let reset := if (s.aud k).unit.tag = .empty then 0#8 else 0x40#8
    ∃ t, exec (.release k role) s = .next t ∧ (t.aud k).epochs = (s.aud k).epochs ∧ s.GoesOn t k b
      ∧ (t.aud k).unit = { (s.aud k).unit with tag := .empty, batch := (t.aud k).unit.batch }
      ∧ (role.toNat < 2 ∨ 7 < role.toNat → t.bindings = s.bindings
          ∧ s.ResultIssued t k b.next (0x05#8 ||| reset) (List.replicate 16 0))
      ∧ (∀ r : Role, r.code = role → r ≠ .showRecord →
          (s.binding k r = none ∨ ((r = .cues ∨ r = .payload) ∧ (s.aud k).unit.showState ≠ .halted)) →
          t.bindings = s.bindings ∧ s.ResultIssued t k b.next (0x03#8 ||| reset) (List.replicate 16 0))
      ∧ (∀ (r : Role) (x : Binding), r.code = role → r ≠ .showRecord → s.binding k r = some x →
          ((r = .cues ∨ r = .payload) → (s.aud k).unit.showState = .halted) →
          t.binding k r = none
          ∧ t.bindings = s.bindings.filter (fun y => !(y.aud == k && y.role == r))
          ∧ s.TableIssued t (some k) r x.selector 14 2 [0, 0] .bindingWrite
          ∧ s.ResultIssued t k b.next (0x01#8 ||| reset) (List.replicate 16 0)
          ∧ (r = .cues → (t.aud k).seq.listCount = 0)
          ∧ (r = .narrationA → (t.aud k).mixer.ringA.bound = false ∧ (t.aud k).mixer.ringA.blocks = []
              ∧ (t.aud k).mixer.ringA.take = (s.aud k).mixer.ringA.take)
          ∧ (r = .narrationB → (t.aud k).mixer.ringB.bound = false ∧ (t.aud k).mixer.ringB.blocks = []
              ∧ (t.aud k).mixer.ringB.take = (s.aud k).mixer.ringB.take)
          ∧ (r = .bed → (t.aud k).mixer.bed.bound = false ∧ (t.aud k).mixer.bed.blocks = []
              ∧ (t.aud k).mixer.bed.take = (s.aud k).mixer.bed.take)
          ∧ (r = .reports → (t.aud k).writer.bound = false
              ∧ (t.aud k).writer.writeCount = (s.aud k).writer.writeCount))
      ∧ (t.aud k).clock = (s.aud k).clock
      ∧ (t.aud k).builder = (s.aud k).builder ∧ (t.aud k).link = (s.aud k).link
      ∧ (t.aud k).receiver = (s.aud k).receiver ∧ ∀ j, j ≠ k → t.aud j = s.aud j

/-- RUN (R159): ILLEGAL in RUNNING, BUSY in CLOSING, ILLEGAL without CUES or a narration ring, PARAMETER with
exactly one of CUES and PAYLOAD; otherwise the show is RUNNING, the clock SEARCHING from zero, and the counters of
every block are 0. The batch goes on (R153). -/
def Obligations.RunStartsTheShowOrIsRefused : Prop :=
  ∀ (k : Aud) (b : Batch) (s : State), s.Standing k (.run k) b →
    let reset := if (s.aud k).unit.tag = .empty then 0#8 else 0x40#8
    let shown := (s.aud k).unit.showState
    let content := s.holdsRole k .cues = true ∨ s.holdsRole k .narrationA = true
      ∨ s.holdsRole k .narrationB = true
    let untouched := fun t : State =>
      t.aud k = { s.aud k with unit := { (s.aud k).unit with tag := .empty, batch := (t.aud k).unit.batch } }
    ∃ t, exec (.run k) s = .next t ∧ State.OnlyAud k s t ∧ (t.aud k).unit.tag = .empty ∧ s.GoesOn t k b
      ∧ (shown = .running → untouched t ∧ s.ResultIssued t k b.next (0x03#8 ||| reset) (List.replicate 16 0))
      ∧ (shown = .closing → untouched t ∧ s.ResultIssued t k b.next (0x21#8 ||| reset) (List.replicate 16 0))
      ∧ (shown = .halted → ¬content → untouched t
          ∧ s.ResultIssued t k b.next (0x03#8 ||| reset) (List.replicate 16 0))
      ∧ (shown = .halted → content → s.holdsRole k .cues ≠ s.holdsRole k .payload → untouched t
          ∧ s.ResultIssued t k b.next (0x05#8 ||| reset) (List.replicate 16 0))
      ∧ (shown = .halted → content → s.holdsRole k .cues = s.holdsRole k .payload →
          s.ResultIssued t k b.next (0x01#8 ||| reset) (List.replicate 16 0)
          ∧ (t.aud k).unit.showState = .running ∧ (t.aud k).unit.channels = (s.aud k).unit.channels
          ∧ (t.aud k).clock = { (s.aud k).clock with
              state := .searching, showTime := 0, anchor := (s.aud k).clock.record.houseTime, fraction := 0
              eps := 0, slew := 0, e1 := 0, e2 := 0, acquire := 0, silence := 0, tally := 0, seats := 0 }
          ∧ (t.aud k).receiver = { (s.aud k).receiver with badReports := 0 }
          ∧ (t.aud k).seq.state = .idle ∧ (t.aud k).seq.cursor = 0 ∧ (t.aud k).seq.listEnd = false
          ∧ (t.aud k).seq.listCount = (s.aud k).seq.listCount ∧ (t.aud k).seq.staleCues = 0
          ∧ (t.aud k).seq.crowded = 0 ∧ (t.aud k).seq.truncated = 0 ∧ (t.aud k).seq.badCues = 0
          ∧ (t.aud k).mixer.ringA = { (s.aud k).mixer.ringA with underruns := 0 }
          ∧ (t.aud k).mixer.ringB = { (s.aud k).mixer.ringB with underruns := 0 }
          ∧ (t.aud k).mixer.bed = { (s.aud k).mixer.bed with underruns := 0 }
          ∧ (t.aud k).mixer.clippedA = 0 ∧ (t.aud k).mixer.clippedB = 0
          ∧ (t.aud k).mixer.settings = (s.aud k).mixer.settings
          ∧ (t.aud k).builder.lateCues = 0 ∧ (t.aud k).builder.overflow = 0
          ∧ (t.aud k).builder.framesBuilt = 0 ∧ (t.aud k).builder.sequence = (s.aud k).builder.sequence
          ∧ (t.aud k).link = { (s.aud k).link with dropped := 0, retries := 0 })

/-- HALT (R160): TAKEN. In RUNNING the show becomes CLOSING with N + 1 closing frames, the clock IDLE, the screens
empty with the cursor at 0, the mixer's blocks emptied and its gains at gb, and the link is not acted on. In
HALTED and CLOSING no block changes. The batch goes on (R153). -/
def Obligations.HaltClosesARunningShow : Prop :=
  ∀ (k : Aud) (b : Batch) (s : State), s.Standing k (.halt k) b →
    let reset := if (s.aud k).unit.tag = .empty then 0#8 else 0x40#8
    ∃ t, exec (.halt k) s = .next t ∧ State.OnlyAud k s t ∧ (t.aud k).unit.tag = .empty ∧ s.GoesOn t k b
      ∧ s.ResultIssued t k b.next (0x01#8 ||| reset) (List.replicate 16 0)
      ∧ (t.aud k).link = (s.aud k).link ∧ (t.aud k).receiver = (s.aud k).receiver
      ∧ (t.aud k).unit.channels = (s.aud k).unit.channels
      ∧ ((s.aud k).unit.showState = .running → (t.aud k).unit.showState = .closing
          ∧ (t.aud k).clock.state = .idle ∧ (t.aud k).clock.seats = (s.aud k).clock.seats
          ∧ ((s.aud k).clock.state ≠ .idle → (t.aud k).clock.showTime = 0 ∧ (t.aud k).clock.eps = 0)
          ∧ (t.aud k).seq.state = .idle ∧ (t.aud k).seq.cursor = 0 ∧ (t.aud k).seq.window = []
          ∧ (∀ c : Channel, (t.aud k).seq.active[c] = []) ∧ (t.aud k).builder.queue = []
          ∧ (t.aud k).builder.records = []
          ∧ (t.aud k).builder.closing = (s.aud k).unit.channels.copies + 1
          ∧ (∀ r ∈ [RingName.a, .b, .bed], ((t.aud k).mixer.ring r).blocks = []
              ∧ ((t.aud k).mixer.ring r).resync = true
              ∧ ((t.aud k).mixer.ring r).take = ((s.aud k).mixer.ring r).take)
          ∧ (t.aud k).mixer.gainA = (s.aud k).mixer.settings.gb.toNat
          ∧ (t.aud k).mixer.gainB = (s.aud k).mixer.settings.gb.toNat)
      ∧ ((s.aud k).unit.showState ≠ .running → (t.aud k).unit.showState = (s.aud k).unit.showState
          ∧ (t.aud k).clock = (s.aud k).clock ∧ (t.aud k).seq = (s.aud k).seq
          ∧ (t.aud k).mixer = (s.aud k).mixer ∧ (t.aud k).builder = (s.aud k).builder)

/-- SET_CHANNELS (R161): a value out of range gives PARAMETER; in RUNNING and CLOSING a changed mask or address
gives ILLEGAL; otherwise all six settings take their values, the refresh interval clamped to 5 to 250. The batch goes on
(R153). -/
def Obligations.SetChannelsReplacesTheSettings : Prop :=
  ∀ (k : Aud) (captions narration copies refresh check address : Byte) (b : Batch) (s : State),
    s.Standing k (.setChannels k captions narration copies refresh check address) b →
    let reset := if (s.aud k).unit.tag = .empty then 0#8 else 0x40#8
    let inRange := captions.toNat ≤ 15 ∧ narration.toNat ≤ 3 ∧ copies.toNat ≤ 3 ∧ check.toNat ≤ 1
      ∧ address.toNat ≤ 63
    let old := (s.aud k).unit.channels
    let fixed := (s.aud k).unit.showState = .running ∨ (s.aud k).unit.showState = .closing
    let changed := captions.toNat ≠ old.captions.toNat ∨ narration.toNat ≠ old.narration.toNat
      ∨ address.toNat ≠ old.address.toNat
    ∃ t, exec (.setChannels k captions narration copies refresh check address) s = .next t
      ∧ State.OnlyAud k s t ∧ s.GoesOn t k b
      ∧ t.aud k = { s.aud k with unit := { (s.aud k).unit with
          tag := .empty, batch := (t.aud k).unit.batch, channels := (t.aud k).unit.channels } }
      ∧ (¬inRange → (t.aud k).unit.channels = old
          ∧ s.ResultIssued t k b.next (0x05#8 ||| reset) (List.replicate 16 0))
      ∧ (inRange → fixed → changed → (t.aud k).unit.channels = old
          ∧ s.ResultIssued t k b.next (0x03#8 ||| reset) (List.replicate 16 0))
      ∧ (inRange → ¬(fixed ∧ changed) → (t.aud k).unit.channels.captions.toNat = captions.toNat
          ∧ (t.aud k).unit.channels.narration.toNat = narration.toNat
          ∧ (t.aud k).unit.channels.copies = copies.toNat
          ∧ (t.aud k).unit.channels.refresh = max 5 (min 250 refresh.toNat)
          ∧ (t.aud k).unit.channels.checkOn = decide (check = 1#8)
          ∧ (t.aud k).unit.channels.address.toNat = address.toNat
          ∧ s.ResultIssued t k b.next (0x01#8 ||| reset) (List.replicate 16 0))

/-- SET_LOOP (R162, R34): a PM above 15 or a trim beyond ±4800 gives PARAMETER and leaves the settings; otherwise
all seven are replaced, eps_max held to 8388 and holdover to at least 11, and the rate offset is clamped to the new
eps_max at once. -/
def Obligations.SetLoopReplacesTheLoopSettings : Prop :=
  ∀ (k : Aud) (c0 c1 c2 epsMax trim : Half) (pm holdover : Byte) (b : Batch) (s : State),
    s.Standing k (.setLoop k c0 c1 c2 pm epsMax holdover trim) b →
    let reset := if (s.aud k).unit.tag = .empty then 0#8 else 0x40#8
    let bad := 15 < pm.toNat ∨ trim.toInt < -4800 ∨ 4800 < trim.toInt
    let limit := min epsMax.toNat 8388
    ∃ t, exec (.setLoop k c0 c1 c2 pm epsMax holdover trim) s = .next t ∧ State.OnlyAud k s t
      ∧ s.GoesOn t k b ∧ t.aud k = { s.aud k with
          clock := (t.aud k).clock, unit := { (s.aud k).unit with tag := .empty, batch := (t.aud k).unit.batch } }
      ∧ (bad → (t.aud k).clock = (s.aud k).clock
          ∧ s.ResultIssued t k b.next (0x05#8 ||| reset) (List.replicate 16 0))
      ∧ (¬bad → (t.aud k).clock = { (s.aud k).clock with
            eps := max (-(limit : Int)) (min (limit : Int) (s.aud k).clock.eps)
            loop := { c0 := c0.toInt, c1 := c1.toInt, c2 := c2.toInt, pm := pm.toNat, epsMax := limit,
                      holdover := max holdover.toNat 11, trim := trim.toInt } }
          ∧ s.ResultIssued t k b.next (0x01#8 ||| reset) (List.replicate 16 0))

/-- SET_MIX (R163, R91): TAKEN; the five settings are replaced, a gd above gb taken as gb and an attack or release
of 0 as 1; the current gains and the rings stay. -/
def Obligations.SetMixReplacesTheMixSettings : Prop :=
  ∀ (k : Aud) (gn gb gd attack release : Half) (b : Batch) (s : State),
    s.Standing k (.setMix k gn gb gd attack release) b →
    let reset := if (s.aud k).unit.tag = .empty then 0#8 else 0x40#8
    ∃ t, exec (.setMix k gn gb gd attack release) s = .next t ∧ State.OnlyAud k s t
      ∧ s.ResultIssued t k b.next (0x01#8 ||| reset) (List.replicate 16 0)
      ∧ (t.aud k).mixer = { (s.aud k).mixer with settings :=
          { gn := gn, gb := gb, gd := if gb.toNat < gd.toNat then gb else gd
            attack := if attack.toNat = 0 then 1 else attack
            release := if release.toNat = 0 then 1 else release } }
      ∧ s.GoesOn t k b ∧ t.aud k = { s.aud k with
          mixer := (t.aud k).mixer, unit := { (s.aud k).unit with tag := .empty, batch := (t.aud k).unit.batch } }

/-- MARK (R164): TAKEN in every show state but DARK, with the tag state as it stands; the reply holds S, the clock
and sequencer states, the cursor, the rate offset and the house time. The batch goes on (R153). -/
def Obligations.MarkRepliesTheMoment : Prop :=
  ∀ (k : Aud) (b : Batch) (s : State), s.Standing k (.mark k) b →
    let clockCode := match (s.aud k).clock.state with
      | .idle => 0#8 | .searching => 1#8 | .acquiring => 2#8 | .locked => 3#8 | .flywheel => 4#8
      | .paused => 5#8 | .lost => 6#8
    let seqCode := match (s.aud k).seq.state with
      | .idle => 0#8 | .seeking => 1#8 | .walking => 2#8 | .faulted => 3#8
    ∃ t, exec (.mark k) s = .next t ∧ State.OnlyAud k s t
      ∧ s.ResultIssued t k b.next 0x01#8
          (leWord (s.aud k).clock.showTime ++ [clockCode, seqCode] ++ leNat16 (s.aud k).seq.cursor
            ++ leInt (s.aud k).clock.eps ++ leWord s.houseTime)
      ∧ s.GoesOn t k b
      ∧ t.aud k = { s.aud k with unit := { (s.aud k).unit with batch := (t.aud k).unit.batch } }

/-- TAG_FIRST (R168, R169): without CUES it gives ILLEGAL, at or above the list count PARAMETER, and the tag state
is kept; otherwise the tag state is FIRST_SET with the index. It never gets TAG_RESET. -/
def Obligations.TagFirstBeginsARange : Prop :=
  ∀ (k : Aud) (index : Half) (b : Batch) (s : State), s.Standing k (.tagFirst k index) b →
    let held := (s.binding k .cues).isSome = true
    ∃ t, exec (.tagFirst k index) s = .next t ∧ State.OnlyAud k s t
      ∧ (¬held → (t.aud k).unit.tag = (s.aud k).unit.tag
          ∧ s.ResultIssued t k b.next 0x03#8 (List.replicate 16 0))
      ∧ (held → (s.aud k).seq.listCount ≤ index.toNat → (t.aud k).unit.tag = (s.aud k).unit.tag
          ∧ s.ResultIssued t k b.next 0x05#8 (List.replicate 16 0))
      ∧ (held → index.toNat < (s.aud k).seq.listCount → (t.aud k).unit.tag = .firstSet index.toNat
          ∧ s.ResultIssued t k b.next 0x01#8 (List.replicate 16 0))
      ∧ s.GoesOn t k b ∧ t.aud k = { s.aud k with unit := { (s.aud k).unit with
          tag := (t.aud k).unit.tag, batch := (t.aud k).unit.batch } }

/-- TAG_LAST (R168, R170): without CUES it gives ILLEGAL, out of FIRST_SET SEQUENCE, and an index below first, at
or above the list count, or 1024 or more past first PARAMETER, the tag state kept; otherwise the tag state is
RANGE_SET with no untags. -/
def Obligations.TagLastSetsTheRange : Prop :=
  ∀ (k : Aud) (index : Half) (b : Batch) (s : State), s.Standing k (.tagLast k index) b →
    let held := (s.binding k .cues).isSome = true
    let tag := (s.aud k).unit.tag
    ∃ t, exec (.tagLast k index) s = .next t ∧ State.OnlyAud k s t
      ∧ (¬held → (t.aud k).unit.tag = tag ∧ s.ResultIssued t k b.next 0x03#8 (List.replicate 16 0))
      ∧ (held → (∀ first, tag ≠ .firstSet first) → (t.aud k).unit.tag = tag
          ∧ s.ResultIssued t k b.next 0x09#8 (List.replicate 16 0))
      ∧ (∀ first, held → tag = .firstSet first →
          (index.toNat < first ∨ (s.aud k).seq.listCount ≤ index.toNat ∨ 1024 ≤ index.toNat - first) →
          (t.aud k).unit.tag = tag ∧ s.ResultIssued t k b.next 0x05#8 (List.replicate 16 0))
      ∧ (∀ first, held → tag = .firstSet first → first ≤ index.toNat →
          index.toNat < (s.aud k).seq.listCount → index.toNat - first < 1024 →
          (t.aud k).unit.tag = .rangeSet first index.toNat []
          ∧ s.ResultIssued t k b.next 0x01#8 (List.replicate 16 0))
      ∧ s.GoesOn t k b ∧ t.aud k = { s.aud k with unit := { (s.aud k).unit with
          tag := (t.aud k).unit.tag, batch := (t.aud k).unit.batch } }

/-- UNTAG (R168, R171): without CUES it gives ILLEGAL, out of RANGE_SET SEQUENCE, and an index out of the range, or
a ninth one, PARAMETER; an index already listed changes nothing and is TAKEN; another joins at the newest end. -/
def Obligations.UntagLeavesOutUpToEight : Prop :=
  ∀ (k : Aud) (index : Half) (b : Batch) (s : State), s.Standing k (.untag k index) b →
    let held := (s.binding k .cues).isSome = true
    let tag := (s.aud k).unit.tag
    ∃ t, exec (.untag k index) s = .next t ∧ State.OnlyAud k s t
      ∧ (¬held → (t.aud k).unit.tag = tag ∧ s.ResultIssued t k b.next 0x03#8 (List.replicate 16 0))
      ∧ (held → (∀ first last untags, tag ≠ .rangeSet first last untags) → (t.aud k).unit.tag = tag
          ∧ s.ResultIssued t k b.next 0x09#8 (List.replicate 16 0))
      ∧ (∀ first last untags, held → tag = .rangeSet first last untags →
          (index.toNat < first ∨ last < index.toNat ∨ (index.toNat ∉ untags ∧ 8 ≤ untags.length)) →
          (t.aud k).unit.tag = tag ∧ s.ResultIssued t k b.next 0x05#8 (List.replicate 16 0))
      ∧ (∀ first last untags, held → tag = .rangeSet first last untags → first ≤ index.toNat →
          index.toNat ≤ last → (index.toNat ∈ untags ∨ untags.length < 8) →
          (t.aud k).unit.tag = .rangeSet first last
            (if index.toNat ∈ untags then untags else untags ++ [index.toNat])
          ∧ s.ResultIssued t k b.next 0x01#8 (List.replicate 16 0))
      ∧ s.GoesOn t k b ∧ t.aud k = { s.aud k with unit := { (s.aud k).unit with
          tag := (t.aud k).unit.tag, batch := (t.aud k).unit.batch } }

/-- RETRACT (R172 to R175): without CUES it gives ILLEGAL, out of RANGE_SET SEQUENCE, of a SEEKING sequencer BUSY,
and keeps the tag state. One that passes goes through every index of the range not untagged: an active cue leaves
its set, an index below the cursor is counted past, and all others, and the active ones, get the flag write of
their entry, in rising order; past and untagged indices get none. Staged slots take the retracted mark and all others
stay; the Builder gets a removal with cause RETRACTED for each active cue, in rising index order (R52). The reply
carries the two counts, the result PARTIAL where the past count is above 0; the tag state becomes EMPTY. No other block
changes. The batch goes on (R153), and waits for the flag writes. -/
def Obligations.RetractMarksTheRangeOrIsRefused : Prop :=
  ∀ (k : Aud) (b : Batch) (s : State), s.Standing k (.retract k) b →
    let refusedWith := fun (conditions : Byte) => ∃ t, exec (.retract k) s = .next t ∧ State.OnlyAud k s t
      ∧ s.ResultIssued t k b.next conditions (List.replicate 16 0) ∧ s.GoesOn t k b
      ∧ t.aud k = { s.aud k with unit := { (s.aud k).unit with batch := (t.aud k).unit.batch } }
    (s.binding k .cues = none → refusedWith 0x03#8) ∧
    (s.binding k .cues ≠ none → (∀ first last untags, (s.aud k).unit.tag ≠ .rangeSet first last untags) →
      refusedWith 0x09#8) ∧
    (∀ first last untags, s.binding k .cues ≠ none → (s.aud k).unit.tag = .rangeSet first last untags →
      (s.aud k).seq.state = .seeking → refusedWith 0x21#8) ∧
    (∀ (first last : Nat) (untags : List Nat) (x : Binding), s.binding k .cues = some x →
      (s.aud k).unit.tag = .rangeSet first last untags → (s.aud k).seq.state ≠ .seeking →
      32 + 32 * last + 18 ≤ x.limit.toNat →
      (∀ c : Channel, ((s.aud k).seq.active[c].map fun y => y.cue.index).Nodup) →
      (∀ c d : Channel, ∀ y ∈ (s.aud k).seq.active[c], ∀ z ∈ (s.aud k).seq.active[d],
        y.cue.index = z.cue.index → c = d) →
      let q := (s.aud k).seq
      let isActive := fun i => ([0, 1, 2, 3] : List Channel).any fun c => q.active[c].any fun y => y.cue.index == i
      let chosen := (List.range (last + 1)).filter fun i => decide (first ≤ i) && !untags.contains i
      let past := chosen.filter fun i => decide (i < q.cursor) && !isActive i
      let removals := chosen.flatMap fun i => ([0, 1, 2, 3] : List Channel).flatMap fun c =>
        (q.active[c].filter fun y => y.cue.index == i).map fun y => .remove c y.cue .retracted
      ∃ t, exec (.retract k) s = .next t ∧ State.OnlyAud k s t ∧ s.GoesOn t k b
        ∧ s.ResultIssued t k b.next (if past = [] then 0x01#8 else 0x81#8)
            (leNat16 (chosen.length - past.length) ++ leNat16 past.length ++ List.replicate 12 0)
        ∧ (∀ i ∈ chosen, i ∉ past → s.Issued t k .cues (32 + 32 * i + 18) 1 [1] .flagWrite)
        ∧ ((t.inFlight.drop s.inFlight.length).filter fun y => y.purpose == .flagWrite).map Access.offset
          = (chosen.filter fun i => !past.contains i).map (fun i => 32 + 32 * i + 18)
        ∧ (∀ c : Channel, (t.aud k).seq.active[c] = q.active[c].filter fun y => !chosen.contains y.cue.index)
        ∧ t.aud k = { s.aud k with
            seq := { q with
              active := (t.aud k).seq.active
              window := q.window.map fun y =>
                if chosen.contains y.index && !past.contains y.index && !isActive y.index
                then { y with retracted := true } else y }
            builder := ((s.seqSendAll k removals).aud k).builder
            unit := { (s.aud k).unit with tag := .empty, batch := (t.aud k).unit.batch } })

/-- UNKNOWN_DIRECTIVE (R155, R168): a kind that names no directive gives ILLEGAL, and empties a tag state that is
held. The batch goes on (R153). -/
def Obligations.UnknownKindIsIllegal : Prop :=
  ∀ (k : Aud) (kind : Byte) (b : Batch) (s : State), s.Standing k (.unknownDirective k kind) b →
    ∃ t, exec (.unknownDirective k kind) s = .next t ∧ State.OnlyAud k s t
      ∧ s.ResultIssued t k b.next
          (if (s.aud k).unit.tag = .empty then 0x03#8 else 0x43#8) (List.replicate 16 0)
      ∧ s.GoesOn t k b
      ∧ t.aud k = { s.aud k with unit := { (s.aud k).unit with tag := .empty, batch := (t.aud k).unit.batch } }

/-! ## What every step keeps -/

/-- Every step keeps every Show Clock in its ranges (R12, R15, R21, R22) and every Timecode Receiver's buffer in
agreement with its state (R1 to R3). -/
def Obligations.EveryStepKeepsReceiversAndClocksInRange : Prop :=
  ∀ s t : State, (∀ k, (s.aud k).receiver.Sound ∧ (s.aud k).clock.Within) → step s = .next t →
    ∀ k, (t.aud k).receiver.Sound ∧ (t.aud k).clock.Within

/-- Every step keeps the slots, counts and marks of every link in agreement, and every frame on a link within the
payload limit (R99, R116, R118, R126). -/
def Obligations.EveryStepKeepsTheLinksSound : Prop :=
  ∀ s t : State, (∀ k, (s.aud k).link.Sound ∧ (s.aud k).link.Fits k) → step s = .next t →
    ∀ k, (t.aud k).link.Sound ∧ (t.aud k).link.Fits k

/-- Every step of a part that keeps the promises of its part state keeps every Cue Sequencer within its sizes (R36,
R51, R63), its window a run of at most 16 slots for
consecutive cue indices beginning at the cursor, the cursor never above the list count (R41), and the Sequencer and
the clock of a show that is not RUNNING at rest (R33, R60). -/
def Obligations.EveryStepKeepsTheWindowAtTheCursor : Prop :=
  ∀ s t : State, s.PartSound → (∀ k, (s.aud k).seq.Bounded ∧ (s.aud k).Follows) → step s = .next t →
    ∀ k, (t.aud k).seq.Bounded ∧ (t.aud k).Follows

/-- Every step of a part that keeps the promises of its part state, with its Sequencers within their sizes and at their
cursors, keeps every Narration Mixer and Air Builder within its sizes, no more than 16 air records among them, the
channel settings in their ranges and the tag state as R167 describes it (R76, R78, R91, R97, R100, R101, R161, R167);
and it keeps the air records to the cues on screen, one for a cue, the screens empty but in WALKING, and a closing frame
still to build while a show is CLOSING (R51, R71, R101, R113). -/
def Obligations.EveryStepKeepsMixersBuildersAndUnitsBounded : Prop :=
  ∀ s t : State, s.PartSound → (∀ k, (s.aud k).seq.Bounded ∧ (s.aud k).Follows) →
    (∀ k, (s.aud k).mixer.Bounded ∧ (s.aud k).builder.Bounded ∧ (s.aud k).unit.channels.Within
      ∧ (s.aud k).unit.tag.Sound ∧ (s.aud k).Carries) →
    step s = .next t →
    ∀ k, (t.aud k).mixer.Bounded ∧ (t.aud k).builder.Bounded ∧ (t.aud k).unit.channels.Within
      ∧ (t.aud k).unit.tag.Sound ∧ (t.aud k).Carries

/-- Every step keeps what the part state promises (R181): of a part that is not RUNNING every show is DARK, in
STOPPED and STOPPING the map is empty, in STOPPED and SCANNING every link is IDLE, in STOPPED no access is in
flight, in SCANNING the accesses and bindings are the scan's, and in RUNNING every access has its auditorium. -/
def Obligations.EveryStepKeepsThePartStatePromises : Prop :=
  ∀ s t : State, s.PartSound → step s = .next t → t.PartSound

/-- Every step keeps what the binding map promises (R135): no selector appears more than once, and no auditorium
holds a role twice, show records alone have selectors 1 to 24, and no DARK auditorium of a RUNNING part holds a
binding. -/
def Obligations.EveryStepKeepsTheMapExclusive : Prop :=
  ∀ s t : State, s.PartSound → s.MapSound → step s = .next t → t.MapSound

/-- The state after reset has every property the statements above keep. -/
def Obligations.ResetHasEveryKeptProperty : Prop :=
  (∀ k, (State.reset.aud k).receiver.Sound ∧ (State.reset.aud k).clock.Within ∧ (State.reset.aud k).link.Sound
    ∧ (State.reset.aud k).link.Fits k ∧ (State.reset.aud k).seq.Bounded ∧ (State.reset.aud k).Follows
    ∧ (State.reset.aud k).mixer.Bounded ∧ (State.reset.aud k).builder.Bounded
    ∧ (State.reset.aud k).unit.channels.Within ∧ (State.reset.aud k).unit.tag.Sound ∧ (State.reset.aud k).Carries)
  ∧ State.reset.PartSound ∧ State.reset.MapSound
end

