-- ==== Sys2Proof/Laws/State.lean ====
section
/-! SUPPORT. One lemma per field and update of the state, so that no proof unfolds a record update. -/

namespace Sys2Proof.Machine

/-! ## Reading one auditorium after an update -/

@[simp] theorem State.aud_setAud_same (s : State) (k : Aud) (a : Auditorium) : (s.setAud k a).aud k = a := by
  simp [State.setAud, State.aud]

theorem State.aud_setAud_ne (s : State) {k j : Aud} (a : Auditorium) (h : j ≠ k) :
    (s.setAud k a).aud j = s.aud j := by
  have h1 : (k : Nat) ≠ j := fun e => h (Fin.ext e.symm)
  simp only [State.setAud, State.aud, Fin.getElem_fin]
  exact Vector.getElem_set_ne _ _ h1

@[simp] theorem State.aud_modAud_same (s : State) (k : Aud) (f : Auditorium → Auditorium) :
    (s.modAud k f).aud k = f (s.aud k) := by simp [State.modAud]

theorem State.aud_modAud_ne (s : State) {k j : Aud} (f : Auditorium → Auditorium) (h : j ≠ k) :
    (s.modAud k f).aud j = s.aud j := s.aud_setAud_ne _ h

theorem State.aud_modAud (s : State) (k j : Aud) (f : Auditorium → Auditorium) :
    (s.modAud k f).aud j = if j = k then f (s.aud j) else s.aud j := by
  split
  · next h => subst h; exact s.aud_modAud_same _ f
  · next h => exact s.aud_modAud_ne f h

@[simp] theorem State.aud_mapAuds (s : State) (f : Aud → Auditorium → Auditorium) (k : Aud) :
    (s.mapAuds f).aud k = f k (s.aud k) := by
  simp [State.mapAuds, State.aud]

/-- At power-on every auditorium is in its power-on state (R186). -/
@[simp] theorem State.aud_reset (k : Aud) : State.reset.aud k = Auditorium.initial k := by
  simp [State.reset, State.aud]

/-! ## The other fields after `modAud` -/

section ModAud
variable (s : State) (k : Aud) (f : Auditorium → Auditorium)

@[simp] theorem State.modAud_pending : (s.modAud k f).pending = s.pending := rfl
@[simp] theorem State.modAud_partState : (s.modAud k f).partState = s.partState := rfl
@[simp] theorem State.modAud_noticeEn : (s.modAud k f).noticeEn = s.noticeEn := rfl
@[simp] theorem State.modAud_notice : (s.modAud k f).notice = s.notice := rfl
@[simp] theorem State.modAud_houseFault : (s.modAud k f).houseFault = s.houseFault := rfl
@[simp] theorem State.modAud_tableBaseLo : (s.modAud k f).tableBaseLo = s.tableBaseLo := rfl
@[simp] theorem State.modAud_tableBaseHi : (s.modAud k f).tableBaseHi = s.tableBaseHi := rfl
@[simp] theorem State.modAud_tableCount : (s.modAud k f).tableCount = s.tableCount := rfl
@[simp] theorem State.modAud_houseTime : (s.modAud k f).houseTime = s.houseTime := rfl
@[simp] theorem State.modAud_framePhase : (s.modAud k f).framePhase = s.framePhase := rfl
@[simp] theorem State.modAud_latchedBase : (s.modAud k f).latchedBase = s.latchedBase := rfl
@[simp] theorem State.modAud_latchedCount : (s.modAud k f).latchedCount = s.latchedCount := rfl
@[simp] theorem State.modAud_bindings : (s.modAud k f).bindings = s.bindings := rfl
@[simp] theorem State.modAud_inFlight : (s.modAud k f).inFlight = s.inFlight := rfl
@[simp] theorem State.modAud_nextTag : (s.modAud k f).nextTag = s.nextTag := rfl
@[simp] theorem State.modAud_messages : (s.modAud k f).messages = s.messages := rfl
@[simp] theorem State.modAud_readValue : (s.modAud k f).readValue = s.readValue := rfl
@[simp] theorem State.modAud_binding (j : Aud) (role : Role) :
    (s.modAud k f).binding j role = s.binding j role := rfl
@[simp] theorem State.modAud_holdsRole (j : Aud) (role : Role) :
    (s.modAud k f).holdsRole j role = s.holdsRole j role := rfl
@[simp] theorem State.modAud_isCurrent (a : Access) : (s.modAud k f).isCurrent a = s.isCurrent a := rfl

end ModAud

/-! ## One-block updates are `modAud` -/

section Blocks
variable (s : State) (k : Aud)

theorem State.modReceiver_def (f : Receiver → Receiver) :
    s.modReceiver k f = s.modAud k fun a => { a with receiver := f a.receiver } := rfl
theorem State.modClock_def (f : Clock → Clock) :
    s.modClock k f = s.modAud k fun a => { a with clock := f a.clock } := rfl
theorem State.modSeq_def (f : Sequencer → Sequencer) :
    s.modSeq k f = s.modAud k fun a => { a with seq := f a.seq } := rfl
theorem State.modMixer_def (f : Mixer → Mixer) :
    s.modMixer k f = s.modAud k fun a => { a with mixer := f a.mixer } := rfl
theorem State.modBuilder_def (f : Builder → Builder) :
    s.modBuilder k f = s.modAud k fun a => { a with builder := f a.builder } := rfl
theorem State.modLink_def (f : Link → Link) :
    s.modLink k f = s.modAud k fun a => { a with link := f a.link } := rfl
theorem State.modUnit_def (f : DirectiveUnit → DirectiveUnit) :
    s.modUnit k f = s.modAud k fun a => { a with unit := f a.unit } := rfl
theorem State.modWriter_def (f : Writer → Writer) :
    s.modWriter k f = s.modAud k fun a => { a with writer := f a.writer } := rfl

end Blocks

/-! ## Accesses -/

section Issue
variable (s : State) (a : Access)

@[simp] theorem State.issue_inFlight :
    (s.issue a).inFlight = s.inFlight ++ [{ a with tag := s.nextTag, issued := s.houseTime }] := rfl
@[simp] theorem State.issue_nextTag : (s.issue a).nextTag = s.nextTag + 1 := rfl
@[simp] theorem State.issue_aud (k : Aud) : (s.issue a).aud k = s.aud k := rfl
@[simp] theorem State.issue_partState : (s.issue a).partState = s.partState := rfl
@[simp] theorem State.issue_bindings : (s.issue a).bindings = s.bindings := rfl
@[simp] theorem State.issue_pending : (s.issue a).pending = s.pending := rfl
@[simp] theorem State.issue_houseTime : (s.issue a).houseTime = s.houseTime := rfl
@[simp] theorem State.issue_binding (k : Aud) (role : Role) : (s.issue a).binding k role = s.binding k role := rfl

@[simp] theorem State.dropAccess_aud (tag : Nat) (k : Aud) : (s.dropAccess tag).aud k = s.aud k := rfl
@[simp] theorem State.dropAccess_partState (tag : Nat) : (s.dropAccess tag).partState = s.partState := rfl
@[simp] theorem State.dropAccess_bindings (tag : Nat) : (s.dropAccess tag).bindings = s.bindings := rfl
@[simp] theorem State.dropAccess_pending (tag : Nat) : (s.dropAccess tag).pending = s.pending := rfl
@[simp] theorem State.keepAnswer_aud (tag : Nat) (ok : Bool) (k : Aud) : (s.keepAnswer tag ok).aud k = s.aud k := by
  cases ok <;> rfl
@[simp] theorem State.keepAnswer_partState (tag : Nat) (ok : Bool) :
    (s.keepAnswer tag ok).partState = s.partState := by cases ok <;> rfl
@[simp] theorem State.keepAnswer_bindings (tag : Nat) (ok : Bool) :
    (s.keepAnswer tag ok).bindings = s.bindings := by cases ok <;> rfl
@[simp] theorem State.keepAnswer_pending (tag : Nat) (ok : Bool) :
    (s.keepAnswer tag ok).pending = s.pending := by cases ok <;> rfl
@[simp] theorem State.keepAnswer_nextTag (tag : Nat) (ok : Bool) :
    (s.keepAnswer tag ok).nextTag = s.nextTag := by cases ok <;> rfl
@[simp] theorem State.withdraw_aud (tag : Nat) (k : Aud) : (s.withdraw tag).aud k = s.aud k := rfl
@[simp] theorem State.withdraw_partState (tag : Nat) : (s.withdraw tag).partState = s.partState := rfl
@[simp] theorem State.withdraw_bindings (tag : Nat) : (s.withdraw tag).bindings = s.bindings := rfl
@[simp] theorem State.withdraw_pending (tag : Nat) : (s.withdraw tag).pending = s.pending := rfl

end Issue

/-! ## Latches -/

section Latches
variable (s : State)

@[simp] theorem State.setNotice_aud (k : Aud) : s.setNotice.aud k = s.aud k := rfl
@[simp] theorem State.setNotice_notice : s.setNotice.notice = true := rfl
@[simp] theorem State.setNotice_pending : s.setNotice.pending = s.pending := rfl
@[simp] theorem State.setNotice_partState : s.setNotice.partState = s.partState := rfl
@[simp] theorem State.setNotice_bindings : s.setNotice.bindings = s.bindings := rfl
@[simp] theorem State.setNotice_inFlight : s.setNotice.inFlight = s.inFlight := rfl
@[simp] theorem State.setHouseFault_aud (k : Aud) : s.setHouseFault.aud k = s.aud k := rfl
@[simp] theorem State.setHouseFault_houseFault : s.setHouseFault.houseFault = true := rfl
@[simp] theorem State.setHouseFault_notice : s.setHouseFault.notice = true := rfl
@[simp] theorem State.setHouseFault_pending : s.setHouseFault.pending = s.pending := rfl
@[simp] theorem State.setHouseFault_partState : s.setHouseFault.partState = s.partState := rfl
@[simp] theorem State.setHouseFault_bindings : s.setHouseFault.bindings = s.bindings := rfl
@[simp] theorem State.setHouseFault_inFlight : s.setHouseFault.inFlight = s.inFlight := rfl

/-- A stop that ends changes the part state alone (R184). -/
theorem State.settleStop_cases :
    s.settleStop = s ∨
      (s.partState = .stopping ∧ s.inFlight = [] ∧ s.settleStop = { s with partState := .stopped }) := by
  unfold State.settleStop
  split
  · next h => exact .inr ⟨h.1, h.2.1, rfl⟩
  · exact .inl rfl

@[simp] theorem State.settleStop_aud (k : Aud) : s.settleStop.aud k = s.aud k := by
  obtain h | ⟨_, _, h⟩ := s.settleStop_cases <;> rw [h]; rfl
@[simp] theorem State.settleStop_pending : s.settleStop.pending = s.pending := by
  obtain h | ⟨_, _, h⟩ := s.settleStop_cases <;> rw [h]
@[simp] theorem State.settleStop_bindings : s.settleStop.bindings = s.bindings := by
  obtain h | ⟨_, _, h⟩ := s.settleStop_cases <;> rw [h]
@[simp] theorem State.settleStop_inFlight : s.settleStop.inFlight = s.inFlight := by
  obtain h | ⟨_, _, h⟩ := s.settleStop_cases <;> rw [h]

theorem State.settleStop_running (h : s.partState = .running) : s.settleStop = s := by
  unfold State.settleStop
  rw [if_neg]
  rw [h]
  exact fun h => by cases h.1

end Latches

end Sys2Proof.Machine
end

