-- ==== Sys2Proof/Laws/Ops.lean ====
section
/-! SUPPORT. What each shared operation can do, said once: the accesses it issues, the blocks it changes, and that
it leaves the rest alone. -/

namespace Sys2Proof.Machine

/-! ## `OnlyAud` composes -/

theorem State.OnlyAud.refl (k : Aud) (s : State) : State.OnlyAud k s s :=
  { pending := rfl, partState := rfl, noticeEn := rfl, notice := rfl, houseFault := rfl, tableBaseLo := rfl
    tableBaseHi := rfl, tableCount := rfl, houseTime := rfl, framePhase := rfl, latchedBase := rfl
    latchedCount := rfl, bindings := rfl, messages := rfl, readValue := rfl
    inFlight := ⟨[], (List.append_nil _).symm⟩, others := fun _ _ => rfl }

theorem State.OnlyAud.trans {k : Aud} {s t u : State} (h : State.OnlyAud k s t) (g : State.OnlyAud k t u) :
    State.OnlyAud k s u where
  pending := g.pending.trans h.pending
  partState := g.partState.trans h.partState
  noticeEn := g.noticeEn.trans h.noticeEn
  notice := g.notice.trans h.notice
  houseFault := g.houseFault.trans h.houseFault
  tableBaseLo := g.tableBaseLo.trans h.tableBaseLo
  tableBaseHi := g.tableBaseHi.trans h.tableBaseHi
  tableCount := g.tableCount.trans h.tableCount
  houseTime := g.houseTime.trans h.houseTime
  framePhase := g.framePhase.trans h.framePhase
  latchedBase := g.latchedBase.trans h.latchedBase
  latchedCount := g.latchedCount.trans h.latchedCount
  bindings := g.bindings.trans h.bindings
  messages := g.messages.trans h.messages
  readValue := g.readValue.trans h.readValue
  inFlight := by
    obtain ⟨x, hx⟩ := h.inFlight
    obtain ⟨y, hy⟩ := g.inFlight
    exact ⟨x ++ y, by rw [hy, hx, List.append_assoc]⟩
  others := fun j hj => (g.others j hj).trans (h.others j hj)

theorem State.onlyAud_modAud (s : State) (k : Aud) (f : Auditorium → Auditorium) :
    State.OnlyAud k s (s.modAud k f) :=
  { State.OnlyAud.refl k s with others := fun _ hj => s.aud_modAud_ne f hj }

theorem State.onlyAud_issue (s : State) (k : Aud) (a : Access) : State.OnlyAud k s (s.issue a) :=
  { State.OnlyAud.refl k s with inFlight := ⟨_, rfl⟩, others := fun _ _ => rfl }

/-! ## Accesses (R140) -/

/-- R140, the three ends of a binding access. -/
theorem State.launch_cases (s : State) (k : Aud) (role : Role) (offset length : Nat) (data : List Byte)
    (purpose : Purpose) :
    (s.binding k role = none ∧ s.launch k role offset length data purpose = (s, .discarded)) ∨
    ∃ b, s.binding k role = some b ∧
      ((b.limit.toNat < offset + length - 1 ∧
          s.launch k role offset length data purpose = (s, .beyond b.selector)) ∨
       (offset + length - 1 ≤ b.limit.toNat ∧
          s.launch k role offset length data purpose
            = (s.throughBinding b offset length data purpose, .made s.nextTag))) := by
  unfold State.launch
  cases hb : s.binding k role with
  | none => exact .inl ⟨rfl, rfl⟩
  | some b =>
    refine .inr ⟨b, rfl, ?_⟩
    by_cases h : b.limit.toNat < offset + length - 1
    · exact .inl ⟨h, by simp [h]⟩
    · exact .inr ⟨by omega, by simp [h]⟩

/-- A binding found for an auditorium and role is of that auditorium and role, and in the map. -/
theorem State.binding_some {s : State} {k : Aud} {role : Role} {b : Binding} (h : s.binding k role = some b) :
    b ∈ s.bindings ∧ b.aud = k ∧ b.role = role := by
  unfold State.binding at h
  have := List.find?_some h
  simp only [Bool.and_eq_true, beq_iff_eq] at this
  exact ⟨List.mem_of_find?_eq_some h, this.1, this.2⟩

theorem State.onlyAud_launch (s : State) (k : Aud) (role : Role) (offset length : Nat) (data : List Byte)
    (purpose : Purpose) : State.OnlyAud k s (s.launch k role offset length data purpose).1 := by
  obtain ⟨_, h⟩ | ⟨b, _, ⟨_, h⟩ | ⟨_, h⟩⟩ := s.launch_cases k role offset length data purpose <;> rw [h]
  · exact .refl k s
  · exact .refl k s
  · exact s.onlyAud_issue k _

@[simp] theorem State.launch_aud (s : State) (k : Aud) (role : Role) (offset length : Nat) (data : List Byte)
    (purpose : Purpose) (j : Aud) : (s.launch k role offset length data purpose).1.aud j = s.aud j := by
  obtain ⟨_, h⟩ | ⟨b, _, ⟨_, h⟩ | ⟨_, h⟩⟩ := s.launch_cases k role offset length data purpose <;> rw [h]
  rfl

/-! ## Reports (R187) -/

theorem State.onlyAud_missReport (s : State) (k : Aud) : State.OnlyAud k s (s.missReport k) := by
  unfold State.missReport State.modWriter
  exact s.onlyAud_modAud k _

/-- Of its auditorium, missing a report changes the Report Writer alone. -/
theorem State.missReport_aud (s : State) (k j : Aud) :
    (s.missReport k).aud j = { s.aud j with writer := ((s.missReport k).aud j).writer } := by
  unfold State.missReport
  rw [State.modWriter_def, s.aud_modAud]
  split <;> rfl

theorem State.onlyAud_appendReport (s : State) (k : Aud) (r : Report) :
    State.OnlyAud k s (s.appendReport k r) := by
  have h := s.onlyAud_launch k .reports (s.aud k).writer.offset 32
    (reportBytes (s.aud k).writer.writeCount s.houseTime k r) .reportWrite
  unfold State.appendReport
  simp only
  split <;> (rename_i e; rw [e] at h)
  · exact h.trans (State.onlyAud_modAud _ k _)
  · exact h.trans (State.onlyAud_missReport _ k)
  · exact h.trans (State.onlyAud_missReport _ k)

theorem State.appendReport_aud (s : State) (k : Aud) (r : Report) (j : Aud) :
    (s.appendReport k r).aud j = { s.aud j with writer := ((s.appendReport k r).aud j).writer } := by
  have h := s.launch_aud k .reports (s.aud k).writer.offset 32
    (reportBytes (s.aud k).writer.writeCount s.houseTime k r) .reportWrite j
  unfold State.appendReport
  simp only
  split <;> (rename_i e; rw [e] at h; simp only at h)
  · rw [State.modWriter_def, State.aud_modAud]
    split <;> rw [h]
  · rw [State.missReport_aud, h]
  · rw [State.missReport_aud, h]

/-- R187, R191: what a report leaves: nothing, one more missed, or the append. -/
theorem State.report_cases (s : State) (k : Aud) (r : Report) :
    (s.partState ≠ .running ∧ s.report k r = s) ∨
    (s.partState = .running ∧ ((s.aud k).writer.bound && (s.aud k).writer.room) = false
      ∧ s.report k r = s.missReport k) ∨
    (s.partState = .running ∧ ((s.aud k).writer.bound && (s.aud k).writer.room) = true
      ∧ s.report k r = s.appendReport k r) := by
  unfold State.report
  by_cases h : s.partState = .running
  · cases hw : (s.aud k).writer.bound && (s.aud k).writer.room
    · exact .inr (.inl ⟨h, rfl, by simp [h]⟩)
    · exact .inr (.inr ⟨h, rfl, by simp [h]⟩)
  · exact .inl ⟨h, by simp [h]⟩

theorem State.onlyAud_report (s : State) (k : Aud) (r : Report) : State.OnlyAud k s (s.report k r) := by
  obtain ⟨_, h⟩ | ⟨_, _, h⟩ | ⟨_, _, h⟩ := s.report_cases k r <;> rw [h]
  · exact .refl k s
  · exact s.onlyAud_missReport k
  · exact s.onlyAud_appendReport k r

/-- Of every auditorium, a report changes the Report Writer alone. -/
theorem State.report_aud (s : State) (k : Aud) (r : Report) (j : Aud) :
    (s.report k r).aud j = { s.aud j with writer := ((s.report k r).aud j).writer } := by
  obtain ⟨_, h⟩ | ⟨_, _, h⟩ | ⟨_, _, h⟩ := s.report_cases k r <;> rw [h]
  · exact s.missReport_aud k j
  · exact s.appendReport_aud k r j

theorem State.onlyAud_reportAll (s : State) (k : Aud) (l : List Report) :
    State.OnlyAud k s (s.reportAll k l) := by
  induction l generalizing s with
  | nil => exact .refl k s
  | cons r rest ih => exact (s.onlyAud_report k r).trans (ih (s.report k r))

theorem State.reportAll_aud (s : State) (k : Aud) (l : List Report) (j : Aud) :
    (s.reportAll k l).aud j = { s.aud j with writer := ((s.reportAll k l).aud j).writer } := by
  induction l generalizing s with
  | nil => rfl
  | cons r rest ih =>
    have h := ih (s.report k r)
    rw [State.report_aud s k r j] at h
    exact h

/-! ## Accesses with their limit check (R140) -/

/-- R140: an access is made, discarded without report, or reported with cause LIMIT and not made. -/
theorem State.access_cases (s : State) (k : Aud) (role : Role) (offset length : Nat) (data : List Byte)
    (purpose : Purpose) :
    (s.binding k role = none ∧ s.access k role offset length data purpose = (s, none)) ∨
    ∃ b, s.binding k role = some b ∧
      ((b.limit.toNat < offset + length - 1 ∧ s.access k role offset length data purpose
          = (s.report k (.regionFault role b.selector .limit offset), none)) ∨
       (offset + length - 1 ≤ b.limit.toNat ∧ s.access k role offset length data purpose
          = (s.throughBinding b offset length data purpose, some s.nextTag))) := by
  obtain ⟨hb, h⟩ | ⟨b, hb, ⟨hl, h⟩ | ⟨hl, h⟩⟩ := s.launch_cases k role offset length data purpose
  · exact .inl ⟨hb, by simp [State.access, h]⟩
  · exact .inr ⟨b, hb, .inl ⟨hl, by simp [State.access, h]⟩⟩
  · exact .inr ⟨b, hb, .inr ⟨hl, by simp [State.access, h]⟩⟩

/-- An access within its binding is made. -/
theorem State.access_made {s : State} {k : Aud} {role : Role} {b : Binding} (hb : s.binding k role = some b)
    {offset length : Nat} (hl : offset + length - 1 ≤ b.limit.toNat) (data : List Byte) (purpose : Purpose) :
    s.access k role offset length data purpose
      = (s.throughBinding b offset length data purpose, some s.nextTag) := by
  obtain ⟨hn, _⟩ | ⟨b', hb', ⟨hl', _⟩ | ⟨_, h⟩⟩ := s.access_cases k role offset length data purpose
  · rw [hb] at hn; cases hn
  · rw [hb] at hb'; cases hb'; omega
  · rw [hb] at hb'; cases hb'; exact h

theorem State.onlyAud_access (s : State) (k : Aud) (role : Role) (offset length : Nat) (data : List Byte)
    (purpose : Purpose) : State.OnlyAud k s (s.access k role offset length data purpose).1 := by
  obtain ⟨_, h⟩ | ⟨b, _, ⟨_, h⟩ | ⟨_, h⟩⟩ := s.access_cases k role offset length data purpose <;> rw [h]
  · exact .refl k s
  · exact s.onlyAud_report k _
  · exact s.onlyAud_issue k _

/-- Of every auditorium, an access changes at most the Report Writer. -/
theorem State.access_aud (s : State) (k : Aud) (role : Role) (offset length : Nat) (data : List Byte)
    (purpose : Purpose) (j : Aud) :
    (s.access k role offset length data purpose).1.aud j
      = { s.aud j with writer := ((s.access k role offset length data purpose).1.aud j).writer } := by
  obtain ⟨_, h⟩ | ⟨b, _, ⟨_, h⟩ | ⟨_, h⟩⟩ := s.access_cases k role offset length data purpose <;> rw [h]
  · exact s.report_aud k _ j
  · rfl

theorem State.onlyAud_tableAccess (s : State) (k : Aud) (aud : Option Aud) (role : Role) (selector : Byte)
    (within length : Nat) (data : List Byte) (purpose : Purpose) :
    State.OnlyAud k s (s.tableAccess aud role selector within length data purpose) := s.onlyAud_issue k _

@[simp] theorem State.tableAccess_aud (s : State) (aud : Option Aud) (role : Role) (selector : Byte)
    (within length : Nat) (data : List Byte) (purpose : Purpose) (j : Aud) :
    (s.tableAccess aud role selector within length data purpose).aud j = s.aud j := rfl

/-! ## What a Sequencer sends (R52) -/

theorem State.onlyAud_askBuilder (s : State) (k : Aud) (f : Builder → Builder) :
    State.OnlyAud k s (s.askBuilder k f) := by
  unfold State.askBuilder
  split
  · exact s.onlyAud_modAud k _
  · exact .refl k s

theorem State.askBuilder_aud (s : State) (k : Aud) (f : Builder → Builder) (j : Aud) :
    (s.askBuilder k f).aud j = { s.aud j with builder := ((s.askBuilder k f).aud j).builder } := by
  unfold State.askBuilder
  split
  · rw [State.modBuilder_def, s.aud_modAud]; split <;> rfl
  · rfl

theorem State.onlyAud_seqSend (s : State) (k : Aud) (o : SeqOut) : State.OnlyAud k s (s.seqSend k o) := by
  cases o <;> simp only [State.seqSend]
  all_goals first
    | exact s.onlyAud_askBuilder k _
    | exact s.onlyAud_report k _
    | exact s.onlyAud_access k _ _ _ _ _

/-- Of every auditorium, what a Sequencer sends changes at most the Builder and the Report Writer. -/
theorem State.seqSend_aud (s : State) (k : Aud) (o : SeqOut) (j : Aud) :
    (s.seqSend k o).aud j
      = { s.aud j with builder := ((s.seqSend k o).aud j).builder, writer := ((s.seqSend k o).aud j).writer } := by
  cases o <;> simp only [State.seqSend]
  all_goals first
    | (rw [State.askBuilder_aud])
    | (rw [State.report_aud])
    | (rw [State.access_aud])

theorem State.onlyAud_seqSendAll (s : State) (k : Aud) (l : List SeqOut) :
    State.OnlyAud k s (s.seqSendAll k l) := by
  induction l generalizing s with
  | nil => exact .refl k s
  | cons o rest ih => exact (s.onlyAud_seqSend k o).trans (ih (s.seqSend k o))

theorem State.seqSendAll_aud (s : State) (k : Aud) (l : List SeqOut) (j : Aud) :
    (s.seqSendAll k l).aud j
      = { s.aud j with
          builder := ((s.seqSendAll k l).aud j).builder, writer := ((s.seqSendAll k l).aud j).writer } := by
  induction l generalizing s with
  | nil => rfl
  | cons o rest ih =>
    have h := ih (s.seqSend k o)
    rw [State.seqSend_aud s k o j] at h
    exact h

theorem State.onlyAud_seqStep (s : State) (k : Aud) (f : SeqEnv → Sequencer → Sequencer × List SeqOut) :
    State.OnlyAud k s (s.seqStep k f) :=
  (s.onlyAud_modAud k _).trans (State.onlyAud_seqSendAll _ k _)

/-- A Sequencer's step changes the Sequencer as `f` says, and beside it at most the Builder and the Report
Writer. -/
theorem State.seqStep_aud (s : State) (k : Aud) (f : SeqEnv → Sequencer → Sequencer × List SeqOut) :
    (s.seqStep k f).aud k
      = { s.aud k with
          seq := (f (s.seqEnv k) (s.aud k).seq).1
          builder := ((s.seqStep k f).aud k).builder, writer := ((s.seqStep k f).aud k).writer } := by
  have h := State.seqSendAll_aud (s.modSeq k fun _ => (f (s.seqEnv k) (s.aud k).seq).1) k
    (f (s.seqEnv k) (s.aud k).seq).2 k
  rw [State.modSeq_def, State.aud_modAud_same] at h
  exact h

/-! ## Signals (R23, R26, R110) -/

theorem State.onlyAud_signalBuilder (s : State) (k : Aud) : State.OnlyAud k s (s.signalBuilder k) := by
  unfold State.signalBuilder
  split
  · exact s.onlyAud_modAud k _
  · exact .refl k s

theorem State.onlyAud_deliver (s : State) (k : Aud) (sig : Signal) : State.OnlyAud k s (s.deliver k sig) := by
  have h := (s.onlyAud_signalBuilder k).trans (State.onlyAud_modAud (s.signalBuilder k) k
    fun a => { a with mixer := a.mixer.markResync })
  rw [← State.modMixer_def] at h
  unfold State.deliver
  cases sig
  · exact h.trans (State.onlyAud_seqStep _ k _)
  · exact h.trans (State.onlyAud_seqStep _ k _)

theorem State.signalBuilder_aud (s : State) (k j : Aud) :
    (s.signalBuilder k).aud j = { s.aud j with builder := ((s.signalBuilder k).aud j).builder } := by
  unfold State.signalBuilder
  split
  · rw [State.modBuilder_def, s.aud_modAud]; split <;> rfl
  · rfl

/-- A signal of the clock changes at most the Sequencer, the Builder, the Mixer and the Report Writer. -/
theorem State.deliver_aud (s : State) (k : Aud) (sig : Signal) :
    (s.deliver k sig).aud k
      = { s.aud k with
          seq := ((s.deliver k sig).aud k).seq, builder := ((s.deliver k sig).aud k).builder
          mixer := (s.aud k).mixer.markResync, writer := ((s.deliver k sig).aud k).writer } := by
  have e : ((s.signalBuilder k).modMixer k Mixer.markResync).aud k
      = { s.aud k with builder := ((s.signalBuilder k).aud k).builder, mixer := (s.aud k).mixer.markResync } := by
    rw [State.modMixer_def, State.aud_modAud_same, State.signalBuilder_aud]
  cases sig <;> simp only [State.deliver] <;> rw [State.seqStep_aud, e]

theorem State.onlyAud_clockStep (s : State) (k : Aud) (a : ClockAnswer) :
    State.OnlyAud k s (s.clockStep k a) := by
  have h := (s.onlyAud_modAud k fun x => { x with clock := a.clock }).trans
    (State.onlyAud_reportAll _ k a.reports)
  unfold State.clockStep
  cases a.signal with
  | none => exact h
  | some sig => exact h.trans (State.onlyAud_deliver _ k sig)

/-- A clock's answer puts the clock in place and changes at most the Sequencer, the Builder, the Mixer and the
Report Writer beside it. -/
theorem State.clockStep_aud (s : State) (k : Aud) (a : ClockAnswer) :
    (s.clockStep k a).aud k
      = { s.aud k with
          clock := a.clock, seq := ((s.clockStep k a).aud k).seq, builder := ((s.clockStep k a).aud k).builder
          mixer := ((s.clockStep k a).aud k).mixer, writer := ((s.clockStep k a).aud k).writer } := by
  have e : ((s.modClock k fun _ => a.clock).reportAll k a.reports).aud k
      = { s.aud k with
          clock := a.clock
          writer := (((s.modClock k fun _ => a.clock).reportAll k a.reports).aud k).writer } := by
    rw [State.reportAll_aud, State.modClock_def, State.aud_modAud_same]
  unfold State.clockStep
  cases a.signal with
  | none =>
    simp only
    rw [e]
  | some sig =>
    simp only
    rw [State.deliver_aud, e]

end Sys2Proof.Machine
end

