-- ==== Sys2Proof/Laws/Batch.lean ====
section
/-! SUPPORT. What deciding a result does to a batch whose auditorium holds its show record (R153, R154). -/

namespace Sys2Proof.Machine

/-- The batch of a unit with `tags` added to what it waits for. -/
def DirectiveUnit.waitFor (u : DirectiveUnit) (tags : List Nat) : DirectiveUnit :=
  { u with batch := u.batch.map fun b => { b with outstanding := b.outstanding ++ tags } }

theorem DirectiveUnit.waitFor_nil (u : DirectiveUnit) : u.waitFor [] = u := by
  cases u with
  | mk a b c batch d e => cases batch <;> simp [DirectiveUnit.waitFor]

theorem DirectiveUnit.waitFor_waitFor (u : DirectiveUnit) (x y : List Nat) :
    (u.waitFor x).waitFor y = u.waitFor (x ++ y) := by
  cases u with
  | mk a b c batch d e => cases batch <;> simp [DirectiveUnit.waitFor]

theorem State.onlyAud_await (s : State) (k : Aud) (tag : Option Nat) : State.OnlyAud k s (s.await k tag) := by
  unfold State.await State.modUnit
  exact s.onlyAud_modAud k _

theorem State.onlyAud_batchWrite (s : State) (k : Aud) (offset : Nat) (data : List Byte) :
    State.OnlyAud k s (s.batchWrite k offset data) :=
  (s.onlyAud_access k .showRecord offset data.length data .resultWrite).trans (State.onlyAud_await _ k _)

/-- A batch's write within the show record is made, and the batch waits for it. -/
theorem State.batchWrite_made {s : State} {k : Aud} {x : Binding} (hx : s.binding k .showRecord = some x)
    {offset : Nat} {data : List Byte} (hl : offset + data.length - 1 ≤ x.limit.toNat) :
    s.batchWrite k offset data
      = (s.throughBinding x offset data.length data .resultWrite).modAud k
          fun a => { a with unit := a.unit.waitFor [s.nextTag] } := by
  unfold State.batchWrite
  rw [State.access_made hx hl]
  rfl

theorem State.batchWrite_aud {s : State} {k : Aud} {x : Binding} (hx : s.binding k .showRecord = some x)
    {offset : Nat} {data : List Byte} (hl : offset + data.length - 1 ≤ x.limit.toNat) :
    (s.batchWrite k offset data).aud k = { s.aud k with unit := (s.aud k).unit.waitFor [s.nextTag] } := by
  rw [State.batchWrite_made hx hl, State.aud_modAud_same]
  rfl

/-- Several batch writes within the show record: what they change. -/
theorem State.batchWrites_aud {k : Aud} {x : Binding} (data : List Byte) (off : Nat → Nat) (l : List Nat)
    (hl : ∀ i ∈ l, off i + data.length - 1 ≤ x.limit.toNat) :
    ∀ s : State, s.binding k .showRecord = some x →
      State.OnlyAud k s (l.foldl (fun s i => s.batchWrite k (off i) data) s) ∧
      ∃ tags, (l.foldl (fun s i => s.batchWrite k (off i) data) s).aud k
        = { s.aud k with unit := (s.aud k).unit.waitFor tags } := by
  induction l with
  | nil => exact fun s _ => ⟨.refl k s, [], by rw [DirectiveUnit.waitFor_nil]; rfl⟩
  | cons i rest ih =>
    intro s hx
    have h0 := s.onlyAud_batchWrite k (off i) data
    have hx1 : (s.batchWrite k (off i) data).binding k .showRecord = some x := by
      unfold State.binding at hx ⊢
      rw [h0.bindings]
      exact hx
    obtain ⟨h1, tags, h2⟩ := ih (fun j hj => hl j (List.mem_cons_of_mem i hj)) _ hx1
    refine ⟨h0.trans h1, s.nextTag :: tags, ?_⟩
    rw [List.foldl_cons, h2, State.batchWrite_aud hx (hl i List.mem_cons_self)]
    simp only [DirectiveUnit.waitFor_waitFor, List.singleton_append]

/-- R153: deciding the result of the slot a batch has come to writes that result, waits for it, and changes
nothing of the auditorium but where its batch stands. -/
theorem State.decide_spec {s : State} {k : Aud} {x : Binding} {b : Batch} (conditions : Byte)
    (reply : List Byte) (hx : s.binding k .showRecord = some x) (hlim : 511 ≤ x.limit.toNat)
    (hb : (s.aud k).unit.batch = some b) (hn : b.next ≤ 7) :
    State.OnlyAud k s (s.decide k conditions reply) ∧
    s.ResultIssued (s.decide k conditions reply) k b.next conditions (padTo 16 reply) ∧
    ∃ more, (s.decide k conditions reply).aud k
      = { s.aud k with unit := { (s.aud k).unit with batch := some { b with
            next := b.next + 1
            phase := if b.endsAt (b.next + 1) then .ending else .taking
            outstanding := b.outstanding ++ s.nextTag :: more } } } := by
  have hlen : (conditions :: padTo 16 reply).length = 17 := by simp [padTo]
  have hfit : resultOffset b.next + (conditions :: padTo 16 reply).length - 1 ≤ x.limit.toNat := by
    rw [hlen]; unfold resultOffset; omega
  set s1 := s.batchWrite k (resultOffset b.next) (conditions :: padTo 16 reply) with hs1
  have o1 : State.OnlyAud k s s1 := s.onlyAud_batchWrite k _ _
  have a1 : s1.aud k = { s.aud k with unit := (s.aud k).unit.waitFor [s.nextTag] } :=
    State.batchWrite_aud hx hfit
  have b1 : (s1.aud k).unit.batch = some { b with outstanding := b.outstanding ++ [s.nextTag] } := by
    rw [a1]; simp [DirectiveUnit.waitFor, hb]
  have x1 : s1.binding k .showRecord = some x := by
    unfold State.binding at hx ⊢; rw [o1.bindings]; exact hx
  have issued : s.ResultIssued s1 k b.next conditions (padTo 16 reply) := by
    obtain ⟨_, hk, hr⟩ := State.binding_some hx
    refine ⟨x, hx, ?_⟩
    rw [hs1, State.batchWrite_made hx hfit]
    refine ⟨_, List.mem_append_right _ (List.mem_singleton.mpr rfl), ?_⟩
    simp [hk, hr, hlen, resultOffset]
  have hd : s.decide k conditions reply = s1.comeToSlot k (b.next + 1) := by
    unfold State.decide; rw [hb]
  rw [hd]
  have carry : ∀ t, State.OnlyAud k s1 t → State.OnlyAud k s t ∧
      s.ResultIssued t k b.next conditions (padTo 16 reply) := by
    intro t ht
    refine ⟨o1.trans ht, ?_⟩
    obtain ⟨y, hy, a, ha, h⟩ := issued
    obtain ⟨added, hadd⟩ := ht.inFlight
    exact ⟨y, hy, a, by rw [hadd]; exact List.mem_append_left _ ha, h⟩
  unfold State.comeToSlot
  rw [b1]
  simp only
  have he : Batch.endsAt { b with outstanding := b.outstanding ++ [s.nextTag] } (b.next + 1)
      = b.endsAt (b.next + 1) := rfl
  rw [he]
  by_cases hend : b.endsAt (b.next + 1) = true
  · simp only [hend, if_true]
    set s2 := s1.modUnit k fun u =>
      { u with batch := some { b with
          next := b.next + 1, phase := .ending, outstanding := b.outstanding ++ [s.nextTag] } } with hs2
    have o2 : State.OnlyAud k s1 s2 := by rw [hs2]; exact s1.onlyAud_modAud k _
    have x2 : s2.binding k .showRecord = some x := x1
    obtain ⟨o3, tags, a3⟩ := State.batchWrites_aud (k := k) (x := x) [0] resultOffset
      ((List.range 8).drop (b.next + 1))
      (fun i hi => by
        have := List.mem_range.mp (List.mem_of_mem_drop hi)
        simp only [List.length_singleton]; unfold resultOffset; omega) s2 x2
    have a3' : ((s2.writeUnprocessed k (b.next + 1)).aud k).unit.batch
        = some { b with
            next := b.next + 1, phase := .ending
            outstanding := b.outstanding ++ [s.nextTag] ++ tags } := by
      unfold State.writeUnprocessed; rw [a3, hs2, State.modUnit_def, State.aud_modAud_same]
      simp [DirectiveUnit.waitFor]
    have hset : (s2.writeUnprocessed k (b.next + 1)).settleBatch k = s2.writeUnprocessed k (b.next + 1) := by
      unfold State.settleBatch; rw [a3']; simp
    rw [hset]
    refine ⟨(carry _ (o2.trans o3)).1, (carry _ (o2.trans o3)).2, tags, ?_⟩
    unfold State.writeUnprocessed
    rw [a3, hs2, State.modUnit_def, State.aud_modAud_same, a1]
    simp [DirectiveUnit.waitFor]
  · simp only [hend, if_false, Bool.false_eq_true]
    refine ⟨(carry _ (s1.onlyAud_modAud k _)).1, (carry _ (s1.onlyAud_modAud k _)).2, [], ?_⟩
    rw [State.modUnit_def, State.aud_modAud_same, a1]
    simp [DirectiveUnit.waitFor]

end Sys2Proof.Machine
end

