-- ==== Sys2Proof/Laws/Writes.lean ====
section
/-! SUPPORT. The order in which writes end (R142): when the turn of a write has come, and all that the host's answer to
a write can do. -/

namespace Sys2Proof.Machine

/-- The test on addresses and lengths finds a byte in common exactly where there is one. -/
theorem Access.shares_iff (a b : Access) : a.shares b = true ↔ a.CommonByte b := by
  simp only [Access.shares, Bool.and_eq_true, Bool.or_eq_true, decide_eq_true_eq]
  constructor
  · rintro ⟨⟨ha, hb⟩, h | h⟩
    · exact ⟨_, 0, h, hb, by
        rw [BitVec.ofNat_toNat, BitVec.setWidth_eq, BitVec.add_comm, BitVec.sub_add_cancel, BitVec.add_zero]⟩
    · exact ⟨0, _, ha, h, by
        rw [BitVec.ofNat_toNat, BitVec.setWidth_eq, BitVec.add_comm b.address, BitVec.sub_add_cancel, BitVec.add_zero]⟩
  · rintro ⟨i, j, hi, hj, h⟩
    refine ⟨⟨Nat.zero_lt_of_lt hi, Nat.zero_lt_of_lt hj⟩, ?_⟩
    rcases Nat.le_total j i with hij | hij
    · left
      have e : b.address - a.address = BitVec.ofNat 64 (i - j) := by
        rw [← Nat.sub_add_cancel hij, BitVec.ofNat_add] at h
        have : a.address + BitVec.ofNat 64 (i - j) = b.address := by
          rw [← BitVec.add_assoc] at h; exact (BitVec.add_left_inj _).mp h
        rw [← this, BitVec.add_comm, BitVec.add_sub_cancel]
      rw [e, BitVec.toNat_ofNat]
      exact lt_of_le_of_lt (Nat.mod_le _ _) (by omega)
    · right
      have e : a.address - b.address = BitVec.ofNat 64 (j - i) := by
        rw [← Nat.sub_add_cancel hij, BitVec.ofNat_add] at h
        have : b.address + BitVec.ofNat 64 (j - i) = a.address := by
          rw [← BitVec.add_assoc] at h; exact ((BitVec.add_left_inj _).mp h).symm
        rw [← this, BitVec.add_comm, BitVec.add_sub_cancel]
      rw [e, BitVec.toNat_ofNat]
      exact lt_of_le_of_lt (Nat.mod_le _ _) (by omega)

/-- A write waits exactly for an access issued before it that touches a byte in common. -/
theorem State.mustWait_iff (s : State) (a : Access) :
    s.mustWait a = true ↔ ∃ y ∈ s.inFlight, y.tag < a.tag ∧ y.CommonByte a := by
  simp only [State.mustWait, List.any_eq_true, Bool.and_eq_true, decide_eq_true_eq, Access.shares_iff]

theorem State.mustWait_eq_false_iff (s : State) (a : Access) :
    s.mustWait a = false ↔ ∀ y ∈ s.inFlight, y.tag < a.tag → ¬y.CommonByte a := by
  rw [← Bool.not_eq_true, s.mustWait_iff]
  push Not
  rfl

/-- The access a completion finds is the one in flight under its tag, where its sort is the command's. -/
theorem State.findAccess_inFlightAs {s : State} {tag : Nat} {a : Access} (h : s.InFlightAs tag a)
    {sort : Purpose → Bool} (hs : sort a.purpose = true) : s.findAccess tag sort = some a := by
  unfold State.findAccess
  cases hf : s.inFlight.find? fun x => x.tag == tag && sort x.purpose with
  | none => exact absurd (List.find?_eq_none.mp hf a h.member) (by simp [h.tagged, hs])
  | some x =>
    have hx := List.find?_some hf
    simp only [Bool.and_eq_true, beq_iff_eq] at hx
    rw [h.only x (List.mem_of_find?_eq_some hf) hx.1]

/-- All that the host's answer to the write `a` does: the answer is kept, or the write ends. -/
theorem State.endWrite_cases {s : State} {tag : Nat} {a : Access} (h : s.InFlightAs tag a)
    {sort : Purpose → Bool} (hs : sort a.purpose = true) (ok : Bool) :
    (s.mustWait a = true ∧ s.endWrite tag sort ok = s.keepAnswer tag (a.answer.getD ok)) ∨
    (s.mustWait a = false ∧ s.endWrite tag sort ok = s.writeEnded a (a.answer.getD ok)) := by
  unfold State.endWrite
  rw [State.findAccess_inFlightAs h hs]
  cases hm : s.mustWait a
  · exact .inr ⟨rfl, by simp [hm]⟩
  · exact .inl ⟨rfl, by simp [hm]⟩

end Sys2Proof.Machine
end

