-- ==== Sys2Proof/WellFormed.lean ====
section
/-! DEFINITION. Which commands carry operands that their event can bring: a completion brings as many
bytes as its row's read asks for (R192), REGISTER_WRITE the offset of a register, and UNKNOWN_DIRECTIVE a kind code
that names no directive. -/

namespace Sys2Proof

/-- A completion that, where it brings bytes, brings exactly `n` of them. -/
def Completion.hasLength (c : Completion) (n : Nat) : Bool :=
  match c with
  | .ok data => data.length == n
  | .error => true

/-- A completion that brings 1 to `n` bytes, or an error. -/
def Completion.hasLengthUpTo (c : Completion) (n : Nat) : Bool :=
  match c with
  | .ok data => 1 ≤ data.length && data.length ≤ n
  | .error => true

/-- The check on a command's operands. -/
def Instr.wellFormed : Instr → Bool
  | .entryReadComplete _ c => c.hasLength 32
  | .textReadComplete _ c => c.hasLengthUpTo 192
  | .scanReadComplete _ c => c.hasLength 32
  | .lookbackReadComplete _ c => c.hasLength 32
  | .blockReadComplete _ c => c.hasLength 512
  | .descriptorReadComplete _ c => c.hasLength 16
  | .cueListHeaderReadComplete _ c => c.hasLength 4
  | .headReadComplete _ c => c.hasLength 64
  | .slotReadComplete _ c => c.hasLength 256
  | .unknownDirective _ kind => 12 < kind.toNat
  | .powerOn => true
  | .softReset => true
  | .partStart => true
  | .partStop => true
  | .noticeEn _ => true
  | .statusRead => true
  | .registerWrite offset _ => offset.toNat % 4 == 0 && offset.toNat ≤ 0x18
  | .timecodeByteArrival _ _ => true
  | .byteGapExpiry _ => true
  | .frameBoundary _ _ => true
  | .buildPoint _ => true
  | .call _ => true
  | .callAnswer _ _ => true
  | .sendExchange _ _ => true
  | .verdict _ _ => true
  | .waitPoll _ _ => true
  | .readGiveUp _ => true
  | .writeComplete _ _ => true
  | .ackWriteComplete _ _ => true
  | .reportEntryWriteComplete _ _ => true
  | .bind _ _ _ => true
  | .release _ _ => true
  | .run _ => true
  | .halt _ => true
  | .setChannels _ _ _ _ _ _ _ => true
  | .setLoop _ _ _ _ _ _ _ _ => true
  | .setMix _ _ _ _ _ _ => true
  | .mark _ => true
  | .tagFirst _ _ => true
  | .tagLast _ _ => true
  | .untag _ _ => true
  | .retract _ => true

end Sys2Proof
end

