-- ==== Sys2Proof/Tests/Slice0.lean ====
section
/-! SUPPORT. The model's own tests: operands the well-formedness check refuses, values worked out from the manual's
text, and for every statement with hypotheses a state and operands that meet them (`witness_…`). -/

namespace Sys2Proof.Tests

open Sys2Proof.Machine

/-! ## Operands the check refuses, one for each length it knows, and operands it passes -/

theorem test_wf_entry_31 : Instr.wellFormed (.entryReadComplete 0 (.ok (List.replicate 31 0))) = false := by decide
theorem test_wf_entry_32 : Instr.wellFormed (.entryReadComplete 0 (.ok (List.replicate 32 0))) = true := by decide
theorem test_wf_text_0 : Instr.wellFormed (.textReadComplete 0 (.ok [])) = false := by decide
theorem test_wf_text_193 : Instr.wellFormed (.textReadComplete 0 (.ok (List.replicate 193 0))) = false := by
  simp only [Instr.wellFormed, Completion.hasLengthUpTo, List.length_replicate]; decide
theorem test_wf_scan_0 : Instr.wellFormed (.scanReadComplete 0 (.ok [])) = false := by decide
theorem test_wf_lookback_33 : Instr.wellFormed (.lookbackReadComplete 0 (.ok (List.replicate 33 0))) = false := by
  decide
theorem test_wf_block_511 : Instr.wellFormed (.blockReadComplete 0 (.ok (List.replicate 511 0))) = false := by
  simp only [Instr.wellFormed, Completion.hasLength, List.length_replicate]; decide
theorem test_wf_descriptor_15 : Instr.wellFormed (.descriptorReadComplete 0 (.ok (List.replicate 15 0))) = false := by
  decide
theorem test_wf_header_32 : Instr.wellFormed (.cueListHeaderReadComplete 0 (.ok (List.replicate 32 0))) = false := by
  decide
theorem test_wf_head_63 : Instr.wellFormed (.headReadComplete 0 (.ok (List.replicate 63 0))) = false := by decide
theorem test_wf_slot_32 : Instr.wellFormed (.slotReadComplete 0 (.ok (List.replicate 32 0))) = false := by decide
theorem test_wf_unknown_12 : Instr.wellFormed (.unknownDirective 3 12) = false := by decide
theorem test_wf_register_1C : Instr.wellFormed (.registerWrite 0x1C 0) = false := by decide
theorem test_wf_register_02 : Instr.wellFormed (.registerWrite 0x02 0) = false := by decide
theorem test_wf_register_18 : Instr.wellFormed (.registerWrite 0x18 0) = true := by decide
theorem test_wf_error : Instr.wellFormed (.slotReadComplete 0 .error) = true := by decide

/-- The table gives no row any bits: no word spells a command. -/
theorem test_decode_none : decodeTableWord 32 1 = none := rfl

/-! ## Values worked out in the manual's text -/

/-- 01, worked conversions: 01:02:03:12 at rate code 1 is 178,727,040 ticks; with a trim of -960, 178,726,080. -/
theorem test_position_reel :
    messagePosition [0xA5, 1, 1, 0x01, 0x02, 0x03, 0x12, 0, 40, 0] = some 178727040
      ∧ trimmed 178727040 (-960) = 178726080#32 := by decide

/-- 01, a clamped start: 00:00:00:01 at rate code 0 with a trim of -4800 gives 0, and 00:00:00:03 gives 1200. -/
theorem test_position_clamped : trimmed 2000 (-4800) = 0#32 ∧ trimmed 6000 (-4800) = 1200#32 := by decide

/-- 02, a small error while locked. -/
def lockedClock : Clock :=
  { Clock.initial with state := .locked, anchor := 960000, showTime := 1199694 }

/-- 02, worked case: a report of 1,200,000 that began to arrive at 960,300. -/
theorem test_clock_small_error :
    let c := (lockedClock.report { state := .play, showTime := 1200000, arrival := 960300 }).clock
    c.slew = 1 ∧ c.eps = 120 ∧ c.e1 = 6 ∧ c.tally = 0 ∧ c.state = .locked := by decide

/-- 02, the boundary at 960,480 that follows. -/
theorem test_clock_small_error_boundary :
    let c := ((lockedClock.report { state := .play, showTime := 1200000, arrival := 960300 }).clock.boundary
      960480).clock
    c.showTime = 1200175 ∧ c.fraction = 57600 ∧ c.slew = 0 ∧ c.silence = 1 := by decide

/-- 02, at the limits: an error of 1800 with the rate offset at 120. -/
theorem test_clock_at_the_limits :
    (({ lockedClock with eps := 120 } : Clock).steer 1800).1.slew = 48
      ∧ (({ lockedClock with eps := 120 } : Clock).steer 1800).1.eps = 8388
      ∧ (({ lockedClock with eps := 120 } : Clock).steer 1800).1.tally = 1 := by decide

/-- R36: limits 31, 4095 and header counts 300 and 90. -/
theorem test_list_counts :
    listCountOf 300 31 = 0 ∧ listCountOf 300 4095 = 127 ∧ listCountOf 90 4095 = 90
      ∧ listCountOf 0xFFFFFFFF 2097151 = 65535 := by decide

/-- 05, worked cases of the mix: 2000, 84,999 limited to 32,767, and halves of -16,384 and -49,152. -/
theorem test_mix_cases :
    let m : MixSettings := { MixSettings.initial with gn := 32768 }
    mixRaw m 12000 (BitVec.ofInt 16 (-20000)) 16384 = 2000
      ∧ mixRaw { m with gn := 65535 } 30000 25000 32768 = 84999 ∧ mixLimit 84999 = 32767#16
      ∧ mixRaw { m with gn := 1 } (BitVec.ofInt 16 (-16384)) 0 0 = 0
      ∧ mixRaw { m with gn := 3 } (BitVec.ofInt 16 (-16384)) 0 0 = -1 := by decide

/-- 05, a ramp: one step of attack from 32,768 is 32,704, and the last one stops at 8,192. -/
theorem test_ramp :
    let m : MixSettings := { gn := 32768, gb := 32768, gd := 8192, attack := 64, release := 16 }
    duck m true 32768 = 32704 ∧ duck m true 8200 = 8192 ∧ duck m false 32768 = 32768 := by decide

/-- 08, what fits: the rows of the worked table. -/
theorem test_fitness :
    let d : Descriptor := { base := 0x100040000#64, limit := 511, kind := 1, present := true }
    d.unfit .showRecord = none ∧ { d with limit := 510 }.unfit .showRecord = some .tooSmall
      ∧ { d with base := 0x200000020#64, limit := 4095, kind := 5 }.unfit .reports = some .misaligned
      ∧ d.unfit .cues = some .wrongKind := by decide

/-- 08: PAGE granularity and capacities. -/
theorem test_limits :
    descriptorLimit 0x80000003 = 16383 ∧ descriptorLimit 0x800FFFFF = 4294967295 ∧ ringCapacity 16383 = 32
      ∧ ringCapacity 1400 = 2 ∧ reportCapacity 127 = 4 := by decide

/-- R122: the check of the bytes of the text 123456789. -/
theorem test_crc : crc [0x31, 0x32, 0x33, 0x34, 0x35, 0x36, 0x37, 0x38, 0x39] = 0x29B1#16 := by decide +kernel

/-- 12, worked layout: the first 16 bytes of the refresh of cue 39. -/
theorem test_start_section :
    ((AirSection.start 0 { epoch := 4, index := 39 } true false 146 12 0x15 (List.replicate 60 7)).bytes).take 16
        = [0x02, 0x00, 0x04, 0x01, 0x27, 0x00, 0x92, 0x00, 0x0C, 0x15, 0x3C, 0, 0, 0, 0, 0]
      ∧ (AirSection.start 0 { epoch := 4, index := 39 } true false 146 12 0x15 (List.replicate 60 7)).size = 76 := by
  decide

/-! ## Small states -/

/-- Where an outcome goes on, its state. -/
def after (o : Host.Outcome State Fault Refusal) : State :=
  match o with
  | .next t => t
  | .fault _ => State.reset
  | .refused _ => State.reset

/-- A RUNNING part with auditorium 3 as `a`. -/
def lone (a : Auditorium) : State := { (State.reset.setAud 3 a) with partState := .running }

/-- Auditorium 3 at power-on. -/
def fresh : Auditorium := Auditorium.initial 3

/-- The binding of auditorium 3's `role` under `selector`, of `limit`. -/
def bindingOf (role : Role) (selector : Byte) (limit : Word) : Binding :=
  { selector := selector, aud := 3, role := role, epoch := 1, base := 0x10000#64, limit := limit }

/-- The bindings auditorium 3 holds in the tests. -/
def shown : List Binding := [bindingOf .showRecord 4 511]
def cued : List Binding := shown ++ [bindingOf .cues 25 4095, bindingOf .payload 26 4095]

/-- A batch that has come to slot 7, every slot of it holding `slot`. -/
def batchOf (slot : List Byte) : Batch :=
  { generation := 9, slots := List.replicate 8 slot, next := 7, phase := .taking, outstanding := [] }

/-- Auditorium 3 about to take `slot`. -/
def about (show_ : ShowState) (tag : TagState) (slot : List Byte) (a : Auditorium) : Auditorium :=
  { a with unit := { a.unit with showState := show_, tag := tag, firstHead := true, batch := some (batchOf slot) } }

/-- A RUNNING part whose auditorium 3 is about to take `slot`. -/
def taker (show_ : ShowState) (tag : TagState) (slot : List Byte) (bindings : List Binding) (a : Auditorium) : State :=
  { lone (about show_ tag slot a) with bindings := bindings, latchedCount := 256 }

/-- The command the slot spells stands. -/
theorem standing_taker (show_ : ShowState) (tag : TagState) (slot : List Byte) (rest : List Binding)
    (a : Auditorium) (c : Instr) (hs : show_ ≠ .dark) (hc : slotCommand 3 slot = some c) :
    (taker show_ tag slot (shown ++ rest) a).Standing 3 c (batchOf slot) where
  running := rfl
  lit := hs
  batch := rfl
  taking := rfl
  within := by show 7 < 8; decide
  slot := hc
  record := ⟨bindingOf .showRecord 4 511, rfl, by decide⟩

/-- An access of auditorium 3 in flight under tag 7, of the binding epoch the tests use. -/
def flight (role : Role) (selector : Byte) (offset length : Nat) (data : List Byte) (purpose : Purpose) : Access :=
  { tag := 7, issued := 0, aud := some 3, role := role, selector := selector, epoch := 1, offset := offset
    address := 0x10000#64 + BitVec.ofNat 64 offset, length := length, data := data, forwards := [], live := true
    answer := none, purpose := purpose }

/-- A RUNNING part with auditorium 3 as `a` and one access in flight. -/
def flying (x : Access) (bindings : List Binding) (a : Auditorium) : State :=
  { lone a with bindings := bindings, inFlight := [x], nextTag := 8 }

/-- An access alone in flight. -/
theorem inFlight_alone {s : State} {x : Access} (hs : s.inFlight = [x]) (h : x.tag = 7) : s.InFlightAs 7 x where
  member := by simp [hs]
  tagged := h
  only := by simp [hs]

theorem inFlight_flying (x : Access) (bindings : List Binding) (a : Auditorium) (h : x.tag = 7) :
    (flying x bindings a).InFlightAs 7 x := inFlight_alone rfl h

def anyFrame : AirFrame :=
  { auditorium := 3, clockState := .idle, sequence := 0, showTime := 0, closing := false, sections := [] }

/-- A link whose frame is in flight, in `state`. -/
def busy (state : LinkState) : Link := { fresh.link with state := state, frame := some anyFrame }

/-- A write alone in flight has its turn. -/
theorem inTurn_alone {s : State} {x : Access} (hs : s.inFlight = [x]) (ha : x.answer = none) : s.InTurn x := by
  refine ⟨fun y hy hlt => ?_, by rw [ha]; decide⟩
  obtain rfl : y = x := by simpa [hs] using hy
  omega

/-- The host's signal ends a write alone in flight. -/
theorem ends_alone {s : State} {x : Access} (ok : Bool) (hs : s.inFlight = [x]) (h : x.tag = 7) (ha : x.answer = none)
    (hp : x.purpose ∈ [.resultWrite, .snapshotWrite, .flagWrite, .bindingWrite, .startScanWrite]) :
    s.Ends x (.writeComplete 7 ok) (!ok) :=
  ⟨h.symm, hp, by rw [ha]; rfl, (inTurn_alone hs ha).1⟩

/-! ## One step, from the manual's worked sequences -/

/-- 11, a start that fails: NOTICE_EN is 1 and the base has bit 4 set. -/
theorem test_start_fails :
    let s := { State.reset with noticeEn := true, tableBaseLo := 0x00040010, tableBaseHi := 1, tableCount := 40 }
    let t := after (exec .partStart s)
    t.partState = .stopped ∧ t.houseFault = true ∧ t.notice = true ∧ t.messages = 1
      ∧ t.readWindow 0x04 = some 2#32 := by decide

/-- 11, one that succeeds: SCANNING, RUN reads 1, and 39 reads, the first of entry 1. -/
theorem test_start_succeeds :
    let s := { State.reset with noticeEn := true, tableBaseLo := 0x00040000, tableBaseHi := 1, tableCount := 40 }
    let t := after (exec .partStart s)
    t.partState = .scanning ∧ t.readWindow 0x04 = some 3#32 ∧ t.inFlight.length = 39
      ∧ (t.inFlight.map Access.address).head? = some 0x100040010#64 := by decide +kernel

/-- R179: a read of STATUS of a RUNNING part with both latches set gives 0x203 and clears them. -/
theorem test_status_read :
    let t := after (exec .statusRead { lone fresh with notice := true, houseFault := true })
    t.readValue = 0x203#32 ∧ t.notice = false ∧ t.houseFault = false := by decide

/-- 12, the register window: the seven registers at their offsets, and none at 0x1C or off a word. -/
theorem test_window :
    [0x00#8, 0x04#8, 0x08#8, 0x0C#8, 0x10#8, 0x14#8, 0x18#8].map registerAt
        = [some .ident, some .control, some .status, some .houseTime, some .tableBaseLo, some .tableBaseHi,
            some .tableCount]
      ∧ registerAt 0x1C = none ∧ registerAt 0x06 = none := by decide

/-- R192: a write at 0x14 sets the upper word of the table base. -/
theorem test_write_base_high :
    (after (exec (.registerWrite 0x14 5) State.reset)).tableBaseHi = 5
      ∧ (after (exec (.registerWrite 0x14 5) State.reset)).readWindow 0x14 = some 5 := by decide

/-- R119: the CALL of a link whose emitter address is 1 is 0xC1. -/
theorem test_call_token :
    let s := lone { fresh with
      link := { fresh.link with state := .calling }
      unit := { fresh.unit with channels := { fresh.unit.channels with address := 1 } } }
    ((after (exec (.call 3) s)).aud 3).link.out = some 0xC1#8 := by decide

/-- 01, worked sequence: 97 ticks after the latest byte the message is abandoned and counted, at 96 it is not. -/
theorem test_gap :
    let a := { fresh with receiver := { fresh.receiver with
      state := .assembling, buffer := [0xA5, 1, 1, 0], firstTick := some 10500, latestTick := some 10512
      badReports := 8 } }
    ((after (exec (.byteGapExpiry 3) { lone a with houseTime := 10609 })).aud 3).receiver.badReports = 9
      ∧ ((after (exec (.byteGapExpiry 3) { lone a with houseTime := 10608 })).aud 3).receiver.badReports = 8 := by
  decide

/-- 11, a small ring filling: the sixth report is number 4, in slot 0. -/
theorem test_report_slot :
    let w : Writer := { bound := true, capacity := 4, writeCount := 4, readCount := 3, missed := 1 }
    let s := { lone { fresh with writer := w } with bindings := shown ++ [bindingOf .reports 28 127] }
    ((s.report 3 .clockFlywheel).inFlight.map Access.offset) = [0]
      ∧ ((s.report 3 .clockFlywheel).aud 3).writer.writeCount = 5 := by decide

/-- Two writes of two bytes of auditorium 3 in flight, the older at 0x10000, the newer one byte on. -/
def overlapped : State :=
  let w := fun (tag offset : Nat) (data : List Byte) =>
    { flight .showRecord 4 offset 2 data .resultWrite with tag := tag }
  { lone fresh with bindings := shown, inFlight := [w 7 0 [1, 2], w 8 1 [3, 4]], nextTag := 9 }

/-- R142: the newer of two writes of a common byte does not end before the older; then both have. -/
theorem test_write_order :
    let s := after (exec (.writeComplete 8 true) overlapped)
    let t := after (exec (.writeComplete 7 true) s)
    s.inFlight.map Access.tag = [7, 8] ∧ t.inFlight.map Access.tag = [8]
      ∧ t.work.head? = some (.writeComplete 8 true)
      ∧ (after (exec (.writeComplete 8 true) t)).inFlight = [] := by decide +kernel

/-- R142: a read issued after both sees 1, then the newer write's 3 and 4; once that has failed, 1 and 2. -/
theorem test_read_after_writes :
    let seen := fun s : State => ((s.access 3 .showRecord 0 4 [] .slotRead).1.inFlight.getLast?.map fun a =>
      a.received [9, 9, 9, 9])
    seen overlapped = some [1, 3, 4, 9]
      ∧ seen (after (exec (.writeComplete 8 false) overlapped)) = some [1, 2, 9, 9] := by decide +kernel

/-! ## Witnesses: for every statement with hypotheses, a state and operands that meet them -/

theorem witness_IdleStep_posts : State.reset.pending = [] ∧ State.reset.work ≠ [] := by
  refine ⟨rfl, ?_⟩
  decide

/-- R13: at reset, frame phase 0, the boundary of auditorium 0 and the build point of auditorium 12 are due, no
other. -/
theorem test_reset_due : ∀ k : Aud, ((State.reset.aud k).boundaryDue = true ↔ k = 0)
    ∧ ((State.reset.aud k).buildDue = true ↔ k = 12) := by decide

theorem witness_IdleStep_tick :
    let s := (State.reset.modAud 0 fun a => { a with boundaryDue := false }).modAud 12 fun a =>
      { a with buildDue := false }
    s.pending = [] ∧ s.work = [] := by
  refine ⟨rfl, ?_⟩
  decide

/-- The work at house time 192 of a read issued at 0 and one issued at 1, of receivers 97 and 96 ticks after their
latest byte, and of an auditorium with both points due and a batch at a MARK. -/
theorem test_work :
    let read := fun (tag : Nat) (issued : Word) =>
      { flight .showRecord 4 0 64 [] .headRead with tag := tag, issued := issued }
    let gap := fun latest : Word => { fresh.receiver with
      state := .assembling, buffer := [0xA5], firstTick := some 0, latestTick := some latest }
    let a := { about .halted .empty [12] fresh with receiver := gap 95, boundaryDue := true, buildDue := true }
    let s := { (lone a).modAud 5 (fun a => { a with receiver := gap 96 }) with
      houseTime := 192, inFlight := [read 7 0, read 8 1] }
    Instr.readGiveUp 7 ∈ s.work ∧ Instr.readGiveUp 8 ∉ s.work ∧ Instr.byteGapExpiry 3 ∈ s.work
      ∧ Instr.byteGapExpiry 5 ∉ s.work ∧ Instr.buildPoint 3 ∈ s.work ∧ Instr.mark 3 ∈ s.work
      ∧ s.work.length = 7 := by decide +kernel

theorem witness_RegisterWrites :
    (4#32).getLsbD 2 = true ∧ (3#32).getLsbD 2 = false
      ∧ ∀ o ∈ [0x1C#8, 0x02#8, 0xFF#8], o ∉ [0x00#8, 0x04#8, 0x08#8, 0x0C#8, 0x10#8, 0x14#8, 0x18#8] := by decide

theorem witness_Start_elsewhere : (lone fresh).partState ≠ .stopped := by decide

/-- The table registers at the ends of each refused range. -/
theorem witness_Start_refused :
    State.reset.partState = .stopped ∧ (24#32).toNat < 25 ∧ 256 < (257#32).toNat
      ∧ ((0#32 : Word) ++ (32#32 : Word)).toNat % 64 ≠ 0 := by decide

/-- The table registers at both ends of the accepted range. -/
theorem witness_Start_accepted :
    State.reset.partState = .stopped ∧ ((1#32 : Word) ++ (64#32 : Word)).toNat % 64 = 0 ∧ 25 ≤ (25#32).toNat
      ∧ (256#32).toNat ≤ 256 := by decide

/-- A stop from RUNNING with every link IDLE, with a link that rests at once, and with each link that finishes. -/
theorem witness_Stop :
    let stopped := fun l : Link => (after (exec .partStop (lone { fresh with link := l }))).partState
    (lone fresh).partState = .running ∧ stopped fresh.link = .stopped ∧ stopped (busy .waiting) = .stopped
      ∧ stopped { busy .waiting with retryDue := true } = .stopped ∧ stopped (busy .calling) = .stopped
      ∧ stopped { busy .calling with called := true } = .stopping ∧ stopped (busy .sending) = .stopping
      ∧ stopped (busy .awaitingVerdict) = .stopping := by decide +kernel

/-- A pending frame is discarded and counted with each link that finishes or rests. -/
theorem witness_Stop_pending :
    let dropped := fun l : Link =>
      ((after (exec .partStop (lone { fresh with link := { l with next := some anyFrame } }))).aud 3).link.dropped
    dropped (busy .sending) = 1 ∧ dropped (busy .waiting) = 1 ∧ dropped (busy .calling) = 2 := by decide +kernel

theorem witness_Stop_others :
    ({ State.reset with partState := .scanning } : State).partState = .scanning ∧ State.reset.partState = .stopped
      ∧ ({ State.reset with partState := .stopping } : State).partState = .stopping := by decide

/-- In STOPPING: a read that completes, that ends in an error, that gives up at 192 ticks, and a write the host refuses,
each the last access. -/
theorem witness_Stop_ends :
    let a := flight .cues 25 32 32 [] (.entryRead 0 0)
    let w := flight .showRecord 4 79 17 [1] .resultWrite
    let s := fun x : Access => { flying x [] fresh with partState := .stopping, houseTime := 192 }
    (s a).partState = .stopping ∧ (s a).InFlightAs 7 a ∧ (s a).Ends a (.entryReadComplete 7 (.ok [])) false
      ∧ (s a).Ends a (.entryReadComplete 7 .error) true ∧ (s a).Ends a (.readGiveUp 7) true ∧ (s w).InFlightAs 7 w
      ∧ (s w).Ends w (.writeComplete 7 false) true :=
  ⟨rfl, inFlight_alone rfl rfl, ⟨rfl, ⟨_, _, rfl⟩, rfl⟩, ⟨rfl, ⟨_, _, rfl⟩, rfl⟩, ⟨rfl, rfl, by decide, rfl⟩,
    inFlight_alone rfl rfl, ends_alone false rfl rfl rfl (by decide)⟩

/-- The last access ends the stop where every link is IDLE; with another in flight, or a link at work, it does not. -/
theorem test_stop_ends :
    let a := flight .cues 25 32 32 [] (.entryRead 0 0)
    let s := fun (l : List Access) (link : Link) =>
      { lone { fresh with link := link } with partState := .stopping, inFlight := l }
    let t := fun l link => after (exec (.entryReadComplete 7 .error) (s l link))
    (t [a] fresh.link).partState = .stopped ∧ (t [a] fresh.link).notice = false
      ∧ ((t [a] fresh.link).aud 3).writer.missed = 0 ∧ (t [a, { a with tag := 8 }] fresh.link).partState = .stopping
      ∧ (t [a] (busy .sending)).partState = .stopping := by decide +kernel

/-! ### Timecode -/

/-- Auditorium 3 with a message begun, the latest byte at tick 0. -/
def assembling (buffer : List Byte) : Auditorium :=
  { fresh with receiver := { fresh.receiver with
      state := .assembling, buffer := buffer, firstTick := some 0, latestTick := some 0 } }

theorem witness_Bytes_elsewhere : State.reset.partState ≠ .running := by decide

theorem witness_Bytes_hunting : ((lone fresh).aud 3).receiver.state = .hunting := by decide

/-- A byte 96 ticks after the latest, joining one byte and joining eight. -/
theorem witness_Bytes_assembling :
    let s := { lone (assembling [0xA5]) with houseTime := 96 }
    s.partState = .running ∧ (s.aud 3).receiver.state = .assembling ∧ (s.aud 3).receiver.latestTick = some 0
      ∧ (s.houseTime - 0).toNat ≤ 96 ∧ (s.aud 3).receiver.buffer.length < 9
      ∧ ((lone (assembling [0xA5, 1, 1, 0, 0, 0, 0, 0])).aud 3).receiver.buffer.length < 9 := by decide

/-- 23:59:59:59 at 60 frames per second, and 00:00:00:00 at 24, with the trims at their ends. -/
theorem witness_ValidMessage :
    let late := [1#8, 5#8, 0x23#8, 0x59#8, 0x59#8, 0x59#8, 7#8, 200#8]
    let early := [1#8, 0#8, 0#8, 0#8, 0#8, 0#8, 7#8, 200#8]
    let s := lone { assembling (0xA5#8 :: late) with clock := { Clock.initial with
      state := .searching, loop := { LoopSettings.initial with trim := 4800 } } }
    (5, 60) ∈ [(0, 24), (1, 25), (2, 30), (3, 48), (4, 50), (5, 60)] ∧ 59 < 60 ∧ s.partState = .running
      ∧ (s.aud 3).receiver.state = .assembling ∧ (s.aud 3).receiver.latestTick = some 0
      ∧ (s.houseTime - 0).toNat ≤ 96 ∧ (s.aud 3).receiver.firstTick = some 0
      ∧ (s.aud 3).receiver.lastSequence ≠ some 200
      ∧ late = [1#8, 5#8] ++ ([23, 59, 59, 59].map fun n => BitVec.ofNat 8 (16 * (n / 10) + n % 10)) ++ [7#8, 200#8]
      ∧ (s.aud 3).receiver.buffer = 0xA5#8 :: late ∧ ((late ++ [0xFD#8]).map BitVec.toNat).sum % 256 = 0
      ∧ ((early ++ [0x30#8]).map BitVec.toNat).sum % 256 = 0
      ∧ (s.aud 3).clock.state = .searching ∧ -4800 ≤ (s.aud 3).clock.loop.trim
      ∧ (s.aud 3).clock.loop.trim ≤ 4800 := by decide

/-- A clock in `state` that awaits the last byte of 00:00:01:00 at 24 frames per second, 48,000 ticks, with its
prediction `behind` ticks behind it. -/
def hearing (state : ClockState) (doing : Byte) (behind acquire : Nat) (seq : Sequencer) : State :=
  { lone { assembling [0xA5#8, doing, 0, 0, 0, 1, 0, 7, 200] with
      clock := { Clock.initial with state := state, showTime := BitVec.ofNat 32 (48000 - behind), acquire := acquire }
      seq := seq } with bindings := shown }

/-- The same with the last byte come. -/
def heard (state : ClockState) (doing : Byte) (behind acquire : Nat) : Clock :=
  ((after (exec (.timecodeByteArrival 3 (BitVec.ofNat 8 (48 - doing.toNat))) (hearing state doing behind acquire
    .initial))).aud 3).clock

/-- Every clock state and every reported state, at the thresholds and one past them. -/
theorem witness_ValidMessage_hears :
    ∀ state ∈ [ClockState.idle, .searching, .acquiring, .locked, .flywheel, .paused, .lost],
    ∀ doing ∈ [1#8, 2#8, 3#8], ∀ behind ∈ [240, 241, 2400, 2401],
      let s := hearing state doing behind 1 .initial
      let c := (s.aud 3).clock
      s.partState = .running ∧ (s.aud 3).receiver.state = .assembling ∧ (s.aud 3).receiver.firstTick = some 0
        ∧ (s.aud 3).receiver.latestTick = some 0 ∧ (s.houseTime - 0).toNat ≤ 96
        ∧ (s.aud 3).receiver.lastSequence = none ∧ c.state = state ∧ c.loop.trim = 0
        ∧ (([doing, 0, 0, 0, 1, 0, 7, 200, BitVec.ofNat 8 (48 - doing.toNat)] : List Byte).map
            BitVec.toNat).sum % 256 = 0
        ∧ (48000 - ((c.showTime.toNat : Int) + (((0 : Word) - c.anchor).toInt + c.slew))).natAbs = behind := by
  decide +kernel

/-- R24, R28: a PLAY and a PAUSE seat a clock that searches or is lost; a STOP ends a clock that is lost. -/
theorem witness_ValidMessage_searching :
    (heard .searching 1 0 0).state = .acquiring ∧ (heard .searching 2 0 0).state = .paused
      ∧ (heard .searching 3 0 0).state = .searching ∧ (heard .lost 1 0 0).state = .acquiring
      ∧ (heard .lost 2 0 0).state = .paused ∧ (heard .lost 3 0 0).state = .searching
      ∧ (heard .idle 1 0 0).state = .idle := by decide +kernel

/-- R25: 240 ticks from the prediction agree, the third agreement locks, and 241 seat anew. -/
theorem witness_ValidMessage_acquiring :
    (heard .acquiring 1 240 1).state = .acquiring ∧ (heard .acquiring 1 240 1).seats = 0
      ∧ (heard .acquiring 1 240 2).state = .locked ∧ (heard .acquiring 1 241 2).state = .acquiring
      ∧ (heard .acquiring 1 241 2).seats = 1 ∧ (heard .acquiring 2 240 1).seats = 0
      ∧ (heard .acquiring 2 240 1).state = .paused ∧ (heard .acquiring 2 241 1).seats = 1 := by decide +kernel

/-- R27, R29 to R31: 2400 ticks steer or freeze a clock that runs, 2401 seat it, and STOP ends it. -/
theorem witness_ValidMessage_running :
    ∀ state ∈ [ClockState.locked, .flywheel], (heard state 1 2400 0).state = .locked
      ∧ (heard state 1 2400 0).seats = 0 ∧ (heard state 1 2401 0).seats = 1 ∧ (heard state 2 2400 0).state = .paused
      ∧ (heard state 2 2400 0).seats = 0 ∧ (heard state 2 2401 0).seats = 1
      ∧ (heard state 3 0 0).state = .searching := by decide +kernel

/-- R27: a PAUSED clock resumes within 2400 ticks, keeps its seat within 240 of a PAUSE, and is seated past them. -/
theorem witness_ValidMessage_paused :
    (heard .paused 1 2400 0).state = .locked ∧ (heard .paused 1 2400 0).showTime = 48000
      ∧ (heard .paused 1 2401 0).state = .acquiring ∧ (heard .paused 2 240 0).seats = 0
      ∧ (heard .paused 2 241 0).seats = 1 ∧ (heard .paused 3 0 0).state = .searching := by decide +kernel

/-- A seat and a clear order for each state of the Sequencer. -/
theorem witness_ValidMessage_signals :
    let seq := fun state => { Sequencer.initial with state := state, listCount := 3 }
    let s := fun state doing => after (exec (.timecodeByteArrival 3 (BitVec.ofNat 8 (48 - doing)))
      { hearing .locked (BitVec.ofNat 8 doing) 2401 0 (seq state) with bindings := cued })
    (∀ state ∈ [SeqState.walking, .seeking, .idle], ((s state 1).aud 3).seq.state = .seeking)
      ∧ ((s .faulted 1).aud 3).seq.state = .faulted ∧ ((s .walking 3).aud 3).seq.state = .idle
      ∧ (hearing .locked 1 2401 0 (seq .idle)).holdsRole 3 .cues = false
      ∧ ((after (exec (.timecodeByteArrival 3 47) (hearing .locked 1 2401 0 (seq .idle)))).aud 3).seq = seq .idle := by
  decide +kernel

/-- The tenth byte of a message whose sum is off by 1, and of one that repeats the last sequence number. -/
theorem witness_BadMessages :
    let m := [0xA5#8, 1, 1, 0, 0, 0, 0, 0, 40]
    let s := { lone (assembling m) with houseTime := 96 }
    let again := lone { assembling m with receiver := { (assembling m).receiver with lastSequence := some 40 } }
    s.partState = .running ∧ (s.aud 3).receiver.state = .assembling ∧ (s.aud 3).receiver.latestTick = some 0
      ∧ (s.houseTime - 0).toNat ≤ 96 ∧ (s.aud 3).receiver.buffer.length = 9
      ∧ (((m ++ [0xD7#8]).drop 1).map BitVec.toNat).sum % 256 ≠ 0
      ∧ (again.aud 3).receiver.lastSequence = some ((again.aud 3).receiver.buffer.getD 8 0) := by decide

/-- One message for each invalid field, its sum right: a state of 0 and of 4, rate code 6, a digit of 10 in each half,
24 hours, 60 minutes, 60 seconds, and frame 24 at 24 frames per second; each is counted, the first of a good one not. -/
theorem witness_BadMessages_fields :
    let m := fun doing code h mi sec frame : Byte => [0xA5#8, doing, code, h, mi, sec, frame, 0, 40]
    let counted := fun l : List Byte =>
      let check := BitVec.ofNat 8 (256 - ((l.drop 1).map BitVec.toNat).sum % 256)
      (((l ++ [check]).drop 1).map BitVec.toNat).sum % 256 = 0
        ∧ ((after (exec (.timecodeByteArrival 3 check) (lone (assembling l)))).aud 3).receiver.badReports = 1
    (∀ l ∈ [m 0 0 0 0 0 0, m 4 0 0 0 0 0, m 1 6 0 0 0 0, m 1 0 0x0A 0 0 0, m 1 0 0 0xA0 0 0, m 1 0 0 0 0x1A 0,
        m 1 0 0 0 0 0xA1, m 1 0 0x24 0 0 0, m 1 0 0 0x60 0 0, m 1 0 0 0 0x60 0, m 1 0 0 0 0 0x24], counted l)
      ∧ ¬counted (m 1 0 0x23 0x59 0x59 0x23) := by decide +kernel

/-- A byte 97 ticks after the one before: 0xA5 begins a message, 0xA4 does not. -/
theorem witness_BadMessages_late :
    let s := { lone (assembling [0xA5#8, 1]) with houseTime := 97 }
    let r := fun b => ((after (exec (.timecodeByteArrival 3 b) s)).aud 3).receiver
    s.partState = .running ∧ 97 ≤ (s.houseTime - 0).toNat ∧ (r 0xA5).state = .assembling
      ∧ (r 0xA5).buffer = [0xA5#8] ∧ (r 0xA5).badReports = 1 ∧ (r 0xA4).state = .hunting
      ∧ (r 0xA4).badReports = 1 := by decide

theorem witness_Gap : 97 ≤ ((97#32 : Word) - 0).toNat ∧ ((96#32 : Word) - 0).toNat ≤ 96 := by decide

/-! ### The clock and the boundary -/

/-- Auditorium 3 of a RUNNING show at its boundary, under `clock` and `seq`. -/
def atBoundary (clock : Clock) (seq : Sequencer) : Auditorium :=
  { fresh with
    clock := clock, seq := seq, boundaryDue := true
    unit := { fresh.unit with showState := .running, firstHead := true } }

/-- A clock at the ends of its ranges. -/
def hardClock (state : ClockState) : Clock :=
  { Clock.initial with state := state, fraction := 16777215, eps := 8388, slew := 48, e1 := 2400, e2 := -2400
                       acquire := 2, silence := 10, tally := -31 }

theorem within_hardClock (state : ClockState) : (hardClock state).Within where
  loop := by constructor <;> (simp only [hardClock, Clock.initial, LoopSettings.initial]; decide)
  fraction := by show 16777215 < 16777216; decide
  eps := by show -(8388 : Int) ≤ 8388 ∧ (8388 : Int) ≤ 8388; decide
  slew := by show -48 ≤ (48 : Int) ∧ (48 : Int) ≤ 48; decide
  e1 := by show -2400 ≤ (2400 : Int) ∧ (2400 : Int) ≤ 2400; decide
  e2 := by show -2400 ≤ (-2400 : Int) ∧ (-2400 : Int) ≤ 2400; decide
  acquire := by show 2 ≤ 3; decide
  acquiring := fun _ => by show 2 ≤ 2; decide
  silence := by show 10 ≤ 256; decide
  counting := fun _ => by show 10 ≤ 255; decide
  tally := by show -31 ≤ (-31 : Int) ∧ (-31 : Int) ≤ 31; decide

/-- A clock in its ranges that advances, 480 ticks after its anchor. -/
theorem witness_Boundary_advances :
    let s := { lone (atBoundary (hardClock .locked) .initial) with houseTime := 480 }
    (s.aud 3).boundaryDue = true ∧ (s.aud 3).clock.Within ∧ s.houseTime - (s.aud 3).clock.anchor = 480
      ∧ (s.aud 3).clock.state = .locked :=
  ⟨by decide, within_hardClock _, by decide, by decide⟩

/-- R14: intervals of 1 and of 1,344 ticks, the rate offset 8388, the fraction 16,777,215 and the slew 48. -/
theorem witness_Boundary_intervals :
    let s := fun ticks : Word => { lone (atBoundary (hardClock .acquiring) .initial) with houseTime := ticks }
    let c := fun ticks => ((after (exec (.frameBoundary 3 false) (s ticks))).aud 3).clock
    ((s 1).aud 3).boundaryDue = true ∧ ((s 1).aud 3).clock.state = .acquiring ∧ (c 1).showTime = 50
      ∧ (c 1).fraction = 8387 ∧ (c 1344).showTime = 1393 ∧ (c 1344).fraction = 11273471 := by decide +kernel

theorem witness_Boundary_stands :
    ((lone (atBoundary (hardClock .paused) .initial)).aud 3).boundaryDue = true
      ∧ ((lone (atBoundary (hardClock .paused) .initial)).aud 3).clock.state = .paused := by decide

theorem witness_Silence_flywheel :
    let s := lone (atBoundary (hardClock .locked) .initial)
    (s.aud 3).boundaryDue = true ∧ s.partState = .running ∧ (s.aud 3).clock.state = .locked
      ∧ (s.aud 3).clock.silence = 10 ∧ 11 ≤ (s.aud 3).clock.loop.holdover := by decide

theorem witness_Silence_lost :
    let s := lone (atBoundary { hardClock .flywheel with silence := 50 } { Sequencer.initial with state := .walking })
    (s.aud 3).boundaryDue = true ∧ s.partState = .running ∧ (s.aud 3).clock.state.counts = true
      ∧ (s.aud 3).clock.loop.holdover ≤ (s.aud 3).clock.silence ∧ (s.aud 3).seq.state = .walking := by decide

/-- R15: a count of 10 leaves LOCKED as it is and 11 leads to FLYWHEEL; past the holdover a PAUSED clock is lost under
an IDLE, a FAULTED and a WALKING Sequencer alike, which last alone goes to IDLE; LOST counts no more. -/
theorem witness_Silence_counts :
    let s := fun state silence q => lone (atBoundary { hardClock state with silence := silence }
      { Sequencer.initial with state := q })
    let a := fun state silence q => (after (exec (.frameBoundary 3 false) (s state silence q))).aud 3
    ((s .locked 9 .idle).aud 3).boundaryDue = true ∧ (s .locked 9 .idle).partState = .running
      ∧ (a .locked 9 .idle).clock.state = .locked ∧ (a .locked 9 .idle).clock.silence = 10
      ∧ (a .locked 10 .idle).clock.state = .flywheel ∧ (a .locked 10 .idle).writer.missed = 1
      ∧ (a .lost 50 .idle).clock.silence = 50 ∧ (a .lost 50 .idle).writer.missed = 0
      ∧ ∀ q ∈ [SeqState.idle, .faulted, .walking], (a .paused 50 q).clock.state = .lost
          ∧ (a .paused 50 q).seq.state = (if q = .walking then .idle else q)
          ∧ (a .paused 50 q).mixer.bed.resync = true ∧ (a .paused 50 q).writer.missed = 1 := by decide +kernel

theorem witness_Steering : (hardClock .locked).Within := within_hardClock _

/-- A DARK auditorium with no check in flight, and with one. -/
theorem witness_BoundaryReads_dark :
    let s := lone { fresh with boundaryDue := true }
    let x := flight .showRecord 4 0 16 [] .darkCheckRead
    (s.aud 3).boundaryDue = true ∧ s.partState = .running ∧ (s.aud 3).unit.showState = .dark
      ∧ (∀ a ∈ s.inFlight, a.aud = some 3 → a.purpose ≠ .darkCheckRead)
      ∧ x ∈ (flying x [] { fresh with boundaryDue := true }).inFlight ∧ x.aud = some 3
      ∧ x.purpose = .darkCheckRead := by decide

/-- A RUNNING show whose clock advances, past its first head read, and before it; and a HALTED one. -/
theorem witness_BoundaryReads_lit :
    let s := { lone (atBoundary (hardClock .locked) .initial) with bindings := shown }
    let u := fresh.unit
    (s.aud 3).boundaryDue = true ∧ s.partState = .running ∧ (s.aud 3).clock.state.advances = true
      ∧ (s.aud 3).unit.showState ≠ .dark ∧ s.binding 3 .showRecord = some (bindingOf .showRecord 4 511)
      ∧ 511 ≤ (bindingOf .showRecord 4 511).limit.toNat ∧ (s.aud 3).unit.firstHead = true
      ∧ ((lone { fresh with unit := { u with showState := .halted } }).aud 3).unit.firstHead = false
      ∧ (s.aud 3).unit.tag = .empty := by decide

/-- The 192 bytes a boundary asks to write. -/
def snapshotOf (clock : Clock) (tag : TagState) (first : Bool) : List Byte :=
  let a := atBoundary clock { Sequencer.initial with state := .walking, cursor := 2, listCount := 9 }
  let s := { lone { a with unit := { a.unit with tag := tag, ackGeneration := 7 } } with
    bindings := shown, houseTime := 480 }
  (((after (exec (.frameBoundary 3 first) s)).inFlight.find? fun x => x.purpose == .snapshotWrite).map
    Access.data).getD []

/-- R192: generation, show and clock and sequencer state, tag state, cursor and count at their offsets; of a clock the
boundary finds lost the Sequencer is IDLE whichever order the snapshot has. -/
theorem test_snapshot :
    let ran := snapshotOf { hardClock .locked with silence := 3 } (.rangeSet 5 6 [6]) true
    let lost := snapshotOf { hardClock .flywheel with silence := 50 } (.firstSet 258) true
    ran.length = 192 ∧ ran.take 7 = [7, 0, 0, 0, 2, 3, 2] ∧ (ran.drop 17).take 7 = [2, 1, 0, 5, 0, 6, 0]
      ∧ (ran.drop 24).take 4 = [2, 0, 9, 0] ∧ (lost.drop 4).take 3 = [2, 6, 0]
      ∧ (lost.drop 17).take 7 = [1, 0, 0, 2, 1, 0, 0]
      ∧ (snapshotOf (hardClock .locked) .empty false).length = 192
      ∧ ((snapshotOf (hardClock .locked) .empty true).drop 5).head? = some 4 := by decide +kernel

/-- A slot that holds the CAPTION of cue `index` on channel 0 from `start`. -/
def loaded (index : Nat) (start finish : Word) : Slot :=
  { newSlot index with
    state := .loaded, text := some []
    entry := some { start := start, finish := finish, payloadOffset := 0, payloadLength := 0, channel := 0
                    kind := 1, row := 1, style := 0, retracted := false } }

/-- The cue of `index` on a screen until `finish`. -/
def onScreen (index : Nat) (finish : Word) : ActiveCue :=
  { cue := { epoch := 1, index := index }, start := 0, finish := finish, row := 1, style := 0, text := some []
    reentered := false }

/-- A walk with one due slot and one that is not, one cue that ends and one that stays. -/
theorem witness_Walk :
    let s := { lone (atBoundary { hardClock .locked with silence := 3, showTime := 1000 }
      { Sequencer.initial with
        state := .walking, cursor := 2, listCount := 4, window := [loaded 2 900 3000, loaded 3 5000 6000]
        active := Sequencer.initial.active.set 0 [onScreen 0 1001, onScreen 1 9000] }) with
      bindings := cued, houseTime := 480 }
    (s.aud 3).boundaryDue = true ∧ s.partState = .running ∧ (s.aud 3).unit.showState = .running
      ∧ (s.aud 3).clock.state.advances = true ∧ (s.aud 3).clock.silence < (s.aud 3).clock.loop.holdover
      ∧ (s.aud 3).seq.state = .walking
      ∧ ((after (exec (.frameBoundary 3 true) s)).aud 3).seq.cursor = 3
      ∧ (((after (exec (.frameBoundary 3 true) s)).aud 3).seq.active[(0 : Channel)]).map (fun a => a.cue.index)
          = [1, 2] := by decide +kernel

/-- A walk that takes every slot it holds: a retracted one, a bad one, a stale one, a CLEAR, and five captions on one
channel, the first of which leaves. -/
theorem witness_Walk_taken :
    let caption := fun n => loaded n 900 3000
    let clear := fun n : Nat => { caption n with entry := (caption n).entry.map fun e => { e with kind := 2 } }
    let s := { lone (atBoundary { hardClock .locked with silence := 3, showTime := 1000 }
      { Sequencer.initial with
        state := .walking, listCount := 9
        window := [{ caption 0 with retracted := true }, { caption 1 with bad := true }, loaded 2 900 1001, clear 3,
          caption 4, caption 5, caption 6, caption 7, caption 8] }) with
      bindings := cued, houseTime := 480 }
    let q := ((after (exec (.frameBoundary 3 true) s)).aud 3).seq
    (q.active[(0 : Channel)]).map (fun a => a.cue.index) = [5, 6, 7, 8] ∧ q.badCues = 1 ∧ q.staleCues = 1
      ∧ q.crowded = 1 ∧ q.cursor = 9 ∧ q.listEnd = true := by decide +kernel

/-- R40, R43, R58: under a PAUSED clock, whose show time stands, the one due slot of a list of three is taken and the
entries of the other two are read; a list of as many cues as CUES holds; and a list that comes to its end. -/
theorem witness_Walk_refills :
    let s := fun count : Nat => { lone (atBoundary { hardClock .paused with silence := 3, showTime := 1000 }
      { Sequencer.initial with state := .walking, listCount := count, window := [loaded 0 1000 3000] }) with
      bindings := cued, houseTime := 480 }
    let t := fun count => after (exec (.frameBoundary 3 true) (s count))
    let reads := fun count => ((t count).inFlight.filter fun a => a.role == .cues).map Access.offset
    ((s 3).aud 3).boundaryDue = true ∧ ((s 3).aud 3).clock.state ≠ .idle
      ∧ ((s 3).aud 3).clock.silence < ((s 3).aud 3).clock.loop.holdover
      ∧ (s 3).binding 3 .cues = some (bindingOf .cues 25 4095)
      ∧ 32 + 32 * 127 ≤ (bindingOf .cues 25 4095).limit.toNat + 1
      ∧ ((t 3).aud 3).clock.showTime = 1000 ∧ reads 3 = [64, 96] ∧ ((t 3).aud 3).writer.missed = 0
      ∧ (reads 127).length = 16 ∧ reads 1 = [] ∧ ((t 1).aud 3).writer.missed = 1 := by decide +kernel

/-- R83 to R85: a block two samples ahead of the show plays after two of gap silence; what follows it is filler, which
after a block that is not the last of its stream is an underrun of a PLAYING ring, and after the last is none. -/
theorem witness_RingFrame :
    let ring := fun last => { Ring.initial with
      bound := true, resync := true
      blocks := [{ number := 4, state := .held { start := 1004, silent := false, last := last, samples := [5, 6] } }] }
    let p := fun last => (ring last).play .b 1000
    ((p false).2.1.take 5).map (fun x => (x.value, x.active))
        = [(0, false), (0, false), (5, true), (6, true), (0, false)]
      ∧ (p false).2.2 = [.narrationUnderrun .b 1] ∧ (p false).1.underruns = 1 ∧ (p false).1.condition = .starved
      ∧ (p false).1.take = 1 ∧ (p true).2.2 = [] ∧ (p true).1.underruns = 0 ∧ (p true).1.condition = .resting := by
  decide +kernel

theorem witness_Mix : [({ value := 5, active := true } : Sample)].length = [quiet].length := rfl

/-! ### Build points -/

/-- Auditorium 3 at its build point. -/
def atBuild (show_ : ShowState) (closing : Nat) (link : Link) : Auditorium :=
  { fresh with
    buildDue := true, unit := { fresh.unit with showState := show_ }, link := link
    builder := { fresh.builder with closing := closing } }

theorem witness_Build_nothing :
    ((lone (atBuild .halted 0 fresh.link)).aud 3).buildDue = true
      ∧ ((lone (atBuild .halted 0 fresh.link)).aud 3).unit.showState = .halted
      ∧ (State.reset.setAud 3 (atBuild .running 0 fresh.link)).partState ≠ .running := by decide

/-- A RUNNING show with an IDLE link, and with a link in a frame. -/
theorem witness_Build_running :
    let s := lone (atBuild .running 0 fresh.link)
    let t := lone (atBuild .running 0 (busy .calling))
    (s.aud 3).buildDue = true ∧ s.partState = .running ∧ (s.aud 3).unit.showState = .running
      ∧ (s.aud 3).link.frame = none ∧ (t.aud 3).buildDue = true ∧ (t.aud 3).unit.showState = .running
      ∧ (t.aud 3).link.frame ≠ none := by decide

/-- R79: a used ring at take count 7 of a fill count of 9, that its region holds to its last byte, reads blocks 7 and 8
of its 8 places; the mixer plays under a LOCKED record. -/
theorem witness_Build_reads :
    let r := { fresh.mixer.ringA with bound := true, capacity := 8, take := 7, fill := 9 }
    let s := { lone { atBuild .running 0 fresh.link with
        clock := { fresh.clock with record := { fresh.clock.record with state := .locked } }
        mixer := { fresh.mixer with ringA := r } } with bindings := shown ++ [bindingOf .narrationA 27 4095] }
    let t := after (exec (.buildPoint 3) s)
    (s.aud 3).buildDue = true ∧ s.partState = .running ∧ (s.aud 3).unit.showState = .running
      ∧ [RingName.a, .b, .bed].map ((s.aud 3).mixer.uses (s.aud 3).unit.channels.narration) = [true, false, false]
      ∧ s.binding 3 .narrationA = some (bindingOf .narrationA 27 4095) ∧ 1 ≤ r.capacity
      ∧ r.capacity * 512 ≤ (bindingOf .narrationA 27 4095).limit.toNat + 1
      ∧ t.inFlight.map Access.offset = [3584, 0] := by decide +kernel

/-- A RUNNING show with cue 1 on the screen, its START queued once, and cue 2 aired and due for a refresh. -/
def carrying : Auditorium :=
  { atBuild .running 0 fresh.link with
    seq := { Sequencer.initial with
      active := Sequencer.initial.active.set 0 [onScreen 1 9000, onScreen 2 9000] }
    builder := { fresh.builder with
      queue := [{ kind := .start, channel := 0, cue := some { epoch := 1, index := 1 }, copies := 1, waiting := false }]
      records := [
        { cue := { epoch := 1, index := 1 }, channel := 0, reentered := false, textHeld := true, aired := false
          countdown := 0 },
        { cue := { epoch := 1, index := 2 }, channel := 0, reentered := true, textHeld := true, aired := true
          countdown := 1 }] } }

/-- R105, R106: the START of cue 1 loses its last copy, and cue 2, whose countdown comes to 0, is refreshed. -/
theorem test_build_sections :
    let t := (after (exec (.buildPoint 3) (lone carrying))).aud 3
    t.builder.queue = [] ∧ t.builder.records.map (fun r => r.countdown) = [100, 100]
      ∧ (t.link.frame.map fun f => f.sections.filterMap fun x => match x with
          | .start _ cue refresh reentered .. => some (cue.index, refresh, reentered)
          | _ => none) = some [(1, false, false), (2, true, true)] := by decide +kernel

/-- A request for a cue with a START queued, for one without, for one with a record and for one without, to a Builder
that takes requests and to one that does not. -/
theorem witness_Requests :
    let b := carrying.builder
    let s := lone carrying
    let isStart := fun n (e : QueueEntry) => decide (e.kind = .start ∧ e.cue = some { epoch := 1, index := n })
    b.queue.any (isStart 1) = true ∧ b.queue.any (isStart 2) = false
      ∧ (∃ r ∈ b.records, r.cue = { epoch := 1, index := 2 }) ∧ (∀ r ∈ b.records, r.cue ≠ { epoch := 1, index := 3 })
      ∧ b.queue.length < 32 ∧ s.partState = .running ∧ (s.aud 3).unit.showState = .running
      ∧ ((lone (atBuild .closing 4 fresh.link)).aud 3).unit.showState = .closing := by decide

/-- R104: the removal of aired cue 2 queues its END, that of unaired cue 1 deletes its START and, expired, is counted
late. -/
theorem test_removals :
    let b := fun n cause => (((lone carrying).seqSend 3 (.remove 0 { epoch := 1, index := n } cause)).aud 3).builder
    (b 2 .expired).queue.map QueueEntry.kind = [.start, .finish] ∧ (b 2 .expired).lateCues = 0
      ∧ (b 2 .clearCue).queue.map QueueEntry.kind = [.start] ∧ (b 1 .expired).queue = []
      ∧ (b 1 .expired).lateCues = 1 ∧ (b 1 .displaced).lateCues = 0
      ∧ (b 1 .expired).records.map (fun r => r.cue.index) = [2] := by decide

/-- The last closing frame, and one before it; a link with no frame, with one in flight, and with one pending too. The
narration of a frame with no block in the rings is silent. -/
theorem witness_Closing :
    let s := lone (atBuild .closing 1 fresh.link)
    let full := lone (atBuild .closing 4 { busy .sending with next := some anyFrame })
    (s.aud 3).buildDue = true ∧ s.partState = .running ∧ (s.aud 3).unit.showState = .closing
      ∧ 1 ≤ (s.aud 3).builder.closing ∧ (s.aud 3).link.frame = none
      ∧ ((lone (atBuild .closing 4 fresh.link)).aud 3).builder.closing ≠ 1
      ∧ (∀ name ∈ [RingName.a, .b, .bed], ((s.aud 3).mixer.ring name).blocks = [])
      ∧ ((lone (atBuild .closing 4 (busy .sending))).aud 3).link.next = none ∧ (full.aud 3).link.next = some anyFrame
      ∧ ((after (exec (.buildPoint 3) full)).aud 3).link.dropped = 1 := by decide +kernel

/-! ### Links -/

theorem witness_Call :
    let s := lone { fresh with link := busy .calling }
    let t := lone { fresh with link := { busy .calling with called := true, finishing := true } }
    (s.aud 3).link.state = .calling ∧ (s.aud 3).link.called = false ∧ (s.aud 3).link.finishing = false
      ∧ (t.aud 3).link.finishing = true := by decide

/-- A wait with a retry due, with a pending frame, and with neither. -/
theorem witness_WaitPoll :
    let s := lone { fresh with link := { busy .waiting with retryDue := true } }
    let t := lone { fresh with link := { busy .waiting with next := some anyFrame } }
    let u := lone { fresh with link := busy .waiting }
    (s.aud 3).link.state = .waiting ∧ (1#8 : Byte) ≠ 0#8 ∧ (s.aud 3).link.retryDue = true
      ∧ (t.aud 3).link.state = .waiting ∧ (t.aud 3).link.retryDue = false ∧ (t.aud 3).link.next = some anyFrame
      ∧ (u.aud 3).link.state = .waiting ∧ (u.aud 3).link.retryDue = false ∧ (u.aud 3).link.next = none := by decide

/-- An answer read with no frame pending, and the one that is the fiftieth drop with one pending. -/
theorem witness_Answer :
    let s := lone { fresh with link := { busy .calling with called := true } }
    let t := lone { fresh with link := { busy .calling with called := true, next := some anyFrame, unanswered := 49 } }
    (s.aud 3).link.state = .calling ∧ (s.aud 3).link.called = true ∧ (s.aud 3).link.finishing = false
      ∧ (s.aud 3).link.unanswered ≤ 50 ∧ (0#8 : Byte) ≠ 0x5A#8 ∧ (s.aud 3).link.next = none
      ∧ (t.aud 3).link.unanswered ≤ 50 ∧ (t.aud 3).link.next = some anyFrame
      ∧ ((after (exec (.callAnswer 3 0) t)).aud 3).link.down = true := by decide

/-- A link that finishes and one that has a frame handed on since: the answer drops the frame and the link rests, or
calls for the other. -/
theorem witness_Answer_finishing :
    let l := { busy .calling with called := true, finishing := true }
    let s := { lone { fresh with link := l } with partState := .stopping }
    let t := lone { fresh with link := { l with next := some anyFrame } }
    (s.aud 3).link.finishing = true ∧ (s.aud 3).link.next = none ∧ (s.aud 3).link.unanswered ≤ 50
      ∧ (after (exec (.callAnswer 3 0) s)).partState = .stopped
      ∧ ((after (exec (.callAnswer 3 0) s)).aud 3).link.dropped = 1 ∧ (t.aud 3).link.next = some anyFrame
      ∧ ((after (exec (.callAnswer 3 0) t)).aud 3).link.state = .calling := by decide +kernel

/-- R126: the fiftieth unanswered drop in a row, at an answer and at a verdict, sets DOWN and is reported, the
forty-ninth and one at 50 not; a HEED is reported where DOWN stands. Without a report ring each report counts missed. -/
theorem test_link_reports :
    let l := fun state n => { busy state with called := true, next := some anyFrame, unanswered := n, down := n == 50 }
    let t := fun c state n => (after (exec c (lone { fresh with link := l state n }))).aud 3
    let told := fun c state n => ((t c state n).link.down, (t c state n).writer.missed)
    told (.callAnswer 3 0) .calling 48 = (false, 0) ∧ told (.callAnswer 3 0) .calling 49 = (true, 1)
      ∧ told (.callAnswer 3 0) .calling 50 = (true, 0) ∧ told (.verdict 3 0) .awaitingVerdict 48 = (false, 0)
      ∧ told (.verdict 3 0) .awaitingVerdict 49 = (true, 1) ∧ told (.verdict 3 0) .awaitingVerdict 50 = (true, 0)
      ∧ told (.callAnswer 3 0x5A) .calling 50 = (false, 1) ∧ told (.callAnswer 3 0x5A) .calling 49 = (false, 0) := by
  decide +kernel

/-- The first exchange of SENDING, one in the middle, and the last: OPEN, 16 header bytes, 2 check bytes. -/
theorem witness_Sending :
    let s := lone { fresh with link := busy .sending }
    let line := (if (s.aud 3).link.retry then 0xF5#8 else 0xF6#8) :: anyFrame.bytes
      ++ (if (s.aud 3).link.checkOn then
        [(crc anyFrame.bytes).extractLsb' 0 8, (crc anyFrame.bytes).extractLsb' 8 8] else [])
    (s.aud 3).link.state = .sending ∧ (s.aud 3).link.frame = some anyFrame ∧ (s.aud 3).link.shutDue = false
      ∧ (s.aud 3).link.finishing = false ∧ (s.aud 3).link.sent = 0 ∧ (s.aud 3).link.sent < line.length
      ∧ 1 < line.length ∧ 1 + 1 < line.length ∧ 18 + 1 = line.length := by decide

/-- R121, R122: an exchange that goes on sends one byte more; a REFUSED in the middle makes SHUT due and in the last
byte, after OPEN, the header and the check bytes, drops the frame, of a link that finishes too. -/
theorem test_sending :
    let l := fun sent => { busy .sending with sent := sent, checkOn := true, finishing := true, next := some anyFrame }
    let t := fun b sent => ((after (exec (.sendExchange 3 b) (lone { fresh with link := l sent }))).aud 3).link
    (t 0 0).sent = 1 ∧ (t 0 0).out = some 0xF6#8 ∧ (t 0x2D 17).sent = 18 ∧ (t 0x2D 17).shutDue = true
      ∧ (t 0 18).state = .awaitingVerdict ∧ (t 0x2D 18).state = .calling ∧ (t 0x2D 18).dropped = 1
      ∧ (t 0x2D 18).finishing = false := by decide +kernel

/-- A SHUT due, of a link that goes on and of one that finishes. -/
theorem witness_Sending_shut :
    let s := lone { fresh with link := { busy .sending with shutDue := true } }
    let t := lone { fresh with link := { busy .sending with shutDue := true, finishing := true } }
    (s.aud 3).link.state = .sending ∧ (s.aud 3).link.frame = some anyFrame ∧ (s.aud 3).link.shutDue = true
      ∧ (s.aud 3).link.finishing = false ∧ (t.aud 3).link.finishing = true ∧ (t.aud 3).link.next = none := by decide

/-- A verdict on a first attempt with none pending, on a retry, and with a frame pending. -/
theorem witness_Verdict :
    let s := lone { fresh with link := busy .awaitingVerdict }
    let t := lone { fresh with link := { busy .awaitingVerdict with retry := true, next := some anyFrame } }
    (s.aud 3).link.state = .awaitingVerdict ∧ (s.aud 3).link.unanswered ≤ 50 ∧ (t.aud 3).link.unanswered ≤ 50
      ∧ (s.aud 3).link.finishing = false ∧ (s.aud 3).link.retry = false
      ∧ (s.aud 3).link.next = none ∧ (t.aud 3).link.state = .awaitingVerdict ∧ (t.aud 3).link.finishing = false
      ∧ (t.aud 3).link.retry = true ∧ (t.aud 3).link.next = some anyFrame
      ∧ (0#8 : Byte) ∉ [0x25#8, 0x2B#8, 0x2D#8] := by decide

/-- A verdict on a link that finishes: TAKEN and CHECK_FAILED both end the stop, the second counts a drop. -/
theorem witness_Verdict_finishing :
    let l := { busy .awaitingVerdict with finishing := true }
    let s := { lone { fresh with link := l } with partState := .stopping }
    let t := fun b => after (exec (.verdict 3 b) s)
    (s.aud 3).link.finishing = true ∧ (s.aud 3).link.next = none
      ∧ ((lone { fresh with link := { l with next := some anyFrame } }).aud 3).link.next = some anyFrame
      ∧ (t 0x25).partState = .stopped ∧ ((t 0x25).aud 3).link.dropped = 0 ∧ (t 0x2B).partState = .stopped
      ∧ ((t 0x2B).aud 3).link.dropped = 1 ∧ ((t 0x2B).aud 3).link.retries = 0 := by decide +kernel

/-! ### Reads that complete -/

/-- A cue list entry of no text but `length` bytes at `offset` of PAYLOAD, from 1000 to 2000. -/
def cueBytes (offset : Word) (length : Half) (channel kind flags : Byte) : List Byte :=
  leWord 1000 ++ leWord 2000 ++ leWord offset ++ leHalf length ++ [channel, kind, 1, 0, flags]
    ++ List.replicate 13 0

/-- A WALKING Sequencer whose head slot awaits cue 0. -/
def awaiting (x : Slot) : Auditorium :=
  { fresh with
    seq := { fresh.seq with state := .walking, listCount := 3, window := [x] }
    unit := { fresh.unit with showState := .running, firstHead := true } }

theorem witness_EntryRead :
    let a := flight .cues 25 32 32 [] (.entryRead 0 0)
    let s := flying a cued (awaiting (newSlot 0))
    s.partState = .running ∧ s.InFlightAs 7 a ∧ a.aud = some 3 ∧ a.purpose = .entryRead 0 (newSlot 0).index
      ∧ s.isCurrent a = true ∧ 0 = (s.aud 3).seq.seekGen ∧ (s.aud 3).seq.window = [] ++ newSlot 0 :: []
      ∧ (newSlot 0).state = .reading ∧ s.binding 3 .payload = some (bindingOf .payload 26 4095) :=
  ⟨rfl, inFlight_flying _ _ _ rfl, rfl, rfl, by decide, rfl, rfl, rfl, by decide⟩

/-- An entry for each clause: retracted, bad, CLEAR, disabled channel, no text, text that ends one byte past the
limit, text that ends with it. -/
theorem witness_EntryRead_clauses :
    let a := flight .cues 25 32 32 [] (.entryRead 0 0)
    let e := fun d => parseEntry (a.received d)
    (e (cueBytes 0 0 0 1 1)).retracted = true ∧ (e (cueBytes 0 0 4 1 0)).retracted = false
      ∧ 3 < (e (cueBytes 0 0 4 1 0)).channel.toNat ∧ (e (cueBytes 0 0 3 2 0)).kind = 2#8
      ∧ ¬((e (cueBytes 0 0 3 2 0)).finish.toNat ≤ (e (cueBytes 0 0 3 2 0)).start.toNat)
      ∧ (14#4).getLsbD (e (cueBytes 0 0 0 1 0)).channel.toNat = false
      ∧ (15#4).getLsbD (e (cueBytes 0 0 0 1 0)).channel.toNat = true
      ∧ (e (cueBytes 0 0 0 1 0)).kind = 1#8 ∧ (e (cueBytes 0 0 0 1 0)).payloadLength = 0
      ∧ 4095 < (e (cueBytes 4095 2 0 1 0)).payloadOffset.toNat
          + min (e (cueBytes 4095 2 0 1 0)).payloadLength.toNat 192 - 1
      ∧ 0 < (e (cueBytes 4095 1 0 1 0)).payloadLength.toNat
      ∧ (e (cueBytes 4095 1 0 1 0)).payloadOffset.toNat
          + min (e (cueBytes 4095 1 0 1 0)).payloadLength.toNat 192 - 1 ≤ 4095 := by decide +kernel

/-- R45: a text of 193 bytes counts as truncated, one of 192 not; a text one byte past the limit makes its slot bad and
a report, which counts missed without a ring; without PAYLOAD there is no report. -/
theorem test_entry_counts :
    let a := flight .cues 25 32 32 [] (.entryRead 0 0)
    let t := fun d l => (after (exec (.entryReadComplete 7 (.ok d)) (flying a l (awaiting (newSlot 0))))).aud 3
    let got := fun d l => ((t d l).seq.truncated, (t d l).writer.missed, (t d l).seq.window.map Slot.bad)
    got (cueBytes 0 192 0 1 0) cued = (0, 0, [false]) ∧ got (cueBytes 0 193 0 1 0) cued = (1, 0, [false])
      ∧ got (cueBytes 4095 2 0 1 0) cued = (0, 1, [true])
      ∧ got (cueBytes 0 1 0 1 0) (shown ++ [bindingOf .cues 25 4095]) = (0, 0, [true]) := by decide +kernel

theorem witness_TextRead :
    let x := { newSlot 0 with state := .fetching }
    let a := flight .payload 26 0 5 [] (.textRead 0 { epoch := 1, index := 0 })
    let s := flying a cued (awaiting x)
    s.partState = .running ∧ s.InFlightAs 7 a ∧ a.aud = some 3
      ∧ a.purpose = .textRead 0 { epoch := (s.seqEnv 3).epoch, index := x.index } ∧ s.isCurrent a = true
      ∧ 0 = (s.aud 3).seq.seekGen ∧ (s.aud 3).seq.window = [] ++ x :: [] ∧ x.state = .fetching :=
  ⟨rfl, inFlight_flying _ _ _ rfl, rfl, by decide, by decide, rfl, rfl, rfl⟩

/-- A text read of a cue on a screen, of a staged one, and of neither; the read ends well or in an error. -/
theorem witness_TextRead_elsewhere :
    let cue : CueId := { epoch := 1, index := 0 }
    let a := flight .payload 26 0 5 [] (.textRead 0 cue)
    let airs := { awaiting (newSlot 3) with
      seq := { (awaiting (newSlot 3)).seq with active := Sequencer.initial.active.set 2 [onScreen 0 9, onScreen 1 9] } }
    let t := fun d b => (after (exec (.textReadComplete 7 d) (flying a cued b))).aud 3
    let texts := fun d => (((t d airs).seq.active[(2 : Channel)]).map fun y => (y.cue.index, y.text))
    (flying a cued airs).InFlightAs 7 a ∧ (flying a cued airs).isCurrent a = true
      ∧ (∀ x ∈ airs.seq.window, x.index ≠ cue.index)
      ∧ texts (.ok [7, 7, 7, 7, 7]) = [(0, some [7, 7, 7, 7, 7]), (1, some [])] ∧ texts .error = [(1, some [])]
      ∧ (t .error airs).seq.badCues = 1
      ∧ ((t .error (awaiting { newSlot 0 with state := .fetching })).seq.window.map Slot.bad) = [true]
      ∧ (t .error (awaiting (newSlot 3))).seq = (awaiting (newSlot 3)).seq :=
  ⟨inFlight_flying _ _ _ rfl, by decide, by decide, by decide +kernel, by decide +kernel, by decide +kernel,
    by decide +kernel, by decide +kernel⟩

/-- A seek of a list of 300 cues, at its probe from `cursor`. -/
def probing (cursor : Nat) : Auditorium :=
  { fresh with
    seq := { fresh.seq with
      state := .seeking, listCount := 300, cursor := cursor
      seek := some
        { phase := .scan, target := 1000, direction := .undecided
          batch := [{ index := cursor - 1, entry := none }], lookback := none, stopped := [], candidates := [] } }
    unit := { fresh.unit with showState := .running, firstHead := true } }

/-- Probes at cursor 1 and at the end of the list, of an entry that starts at the target. -/
theorem witness_Probe :
    let a := fun n => flight .cues 25 (32 + 32 * n) 32 [] (.scanRead 0 n)
    let s := flying (a 0) cued (probing 1)
    s.partState = .running ∧ s.InFlightAs 7 (a 0) ∧ (a 0).aud = some 3
      ∧ (a 0).purpose = .scanRead 0 ((s.aud 3).seq.cursor - 1) ∧ s.isCurrent (a 0) = true
      ∧ 0 = (s.aud 3).seq.seekGen ∧ (s.aud 3).seq.state = .seeking ∧ 1 ≤ (s.aud 3).seq.cursor
      ∧ (parseEntry ((a 0).received (cueBytes 0 0 0 1 0))).start.toNat = 1000
      ∧ (flying (a 299) cued (probing 300)).InFlightAs 7 (a 299)
      ∧ ((probing 300).seq.cursor = (probing 300).seq.listCount) :=
  ⟨rfl, inFlight_flying _ _ _ rfl, rfl, rfl, by decide, rfl, rfl, by decide, by decide,
    inFlight_flying _ _ _ rfl, rfl⟩

/-- Auditorium 3 in a seek of 300 cues, to 1000, that scans `batch` in `direction` from `cursor`, its boundary due. -/
def scanningFrom (cursor : Nat) (direction : Direction) (batch : List SeekItem) : Auditorium :=
  { probing cursor with
    boundaryDue := true, clock := hardClock .acquiring
    seq := { (probing cursor).seq with
      seek := some { phase := .scan, target := 1000, direction := direction, batch := batch, lookback := none
                     stopped := [], candidates := [] } } }

/-- R67: an entry at the target keeps a FORWARD scan going, with the entry held behind it, and ends a BACKWARD one; the
last entry of the list ends the scan. -/
theorem witness_Examination :
    let x := fun n : Nat => flight .cues 25 (32 + 32 * n) 32 [] (.scanRead 0 n)
    let later := some { parseEntry (cueBytes 0 0 0 1 0) with start := 1001 }
    let up := fun n => scanningFrom n .forward [{ index := n, entry := none }, { index := n + 1, entry := later }]
    let down := scanningFrom 6 .backward [{ index := 5, entry := none }, { index := 4, entry := later }]
    let last := scanningFrom 299 .forward [{ index := 299, entry := none }]
    let q := fun n a =>
      ((after (exec (.scanReadComplete 7 (.ok (cueBytes 0 0 0 1 0))) (flying (x n) cued a))).aud 3).seq
    (flying (x 5) cued (up 5)).InFlightAs 7 (x 5) ∧ (flying (x 5) cued (up 5)).isCurrent (x 5) = true
      ∧ (up 5).seq.cursor + 2 ≤ (up 5).seq.listCount ∧ 2 ≤ down.seq.cursor
      ∧ (q 5 (up 5)).cursor = 6 ∧ (q 5 (up 5)).seek.map Seek.phase = some .reentry ∧ (q 5 down).cursor = 6
      ∧ (q 5 down).seek.map Seek.phase = some .reentry ∧ (q 299 last).cursor = 300
      ∧ (q 299 last).seek.map Seek.phase = some .reentry :=
  ⟨inFlight_flying _ _ _ rfl, by decide, by decide, by decide, by decide +kernel, by decide +kernel,
    by decide +kernel, by decide +kernel, by decide +kernel, by decide +kernel⟩

/-- R65, R68, R69: what the boundary asks of CUES for a seek that rests, that is to probe, that scans on either way, and
that has come to an end of the list: the lookback below the end, and a walk from the head of the list. -/
theorem witness_SeekingBoundary :
    let s := fun a => { lone a with bindings := shown ++ [bindingOf .cues 25 9631] }
    let t := fun a => after (exec (.frameBoundary 3 false) (s a))
    let asked := fun a => ((t a).inFlight.filter fun x => x.role == .cues).map Access.offset
    let a := scanningFrom 300 .forward []
    ((s a).aud 3).boundaryDue = true ∧ (s a).partState = .running ∧ ((s a).aud 3).clock.state ≠ .idle
      ∧ ((s a).aud 3).clock.silence < ((s a).aud 3).clock.loop.holdover ∧ ((s a).aud 3).seq.state = .seeking
      ∧ (s a).binding 3 .cues = some (bindingOf .cues 25 9631)
      ∧ 32 + 32 * 300 ≤ (bindingOf .cues 25 9631).limit.toNat + 1
      ∧ asked (scanningFrom 5 .forward [{ index := 5, entry := none }]) = []
      ∧ asked (scanningFrom 5 .undecided []) = [160] ∧ (asked (scanningFrom 5 .forward [])).length = 256
      ∧ asked (scanningFrom 2 .backward []) = [64, 32] ∧ (asked a).length = 64 ∧ (asked a).head? = some 9600
      ∧ asked (scanningFrom 2 .undecided []) = [64] ∧ (asked (scanningFrom 0 .backward [])).length = 16
      ∧ ((t (scanningFrom 0 .backward [])).aud 3).seq.state = .walking
      ∧ ((t (scanningFrom 0 .backward [])).aud 3).writer.missed = 1 := by decide +kernel

/-- A CAPTION of channel 0 with no text from `start` to 2000, as a lookback holds it. -/
def heldEntry (start : Word) : CueEntry :=
  { start := start, finish := 2000, payloadOffset := 0, payloadLength := 0, channel := 0, kind := 1, row := 1
    style := 0, retracted := false }

/-- A re-entry whose lookback entry 4 is awaited, 3 and 2 held, 5 a candidate already. -/
def lookingBack : Seek :=
  { phase := .reentry, target := 1000, direction := .forward, batch := []
    lookback := some [{ index := 4, entry := none }, { index := 3, entry := some (heldEntry 1000) },
      { index := 2, entry := some (heldEntry 500) }]
    stopped := []
    candidates := [{ index := 5, channel := 0, start := 1000, finish := 2000, row := 1, style := 0
                     payloadOffset := 0, textLength := 0, truncated := false }] }

/-- Auditorium 3 in that re-entry. -/
def reentering : Auditorium := { probing 6 with seq := { (probing 6).seq with seek := some lookingBack } }

theorem bounded_reentering : reentering.seq.Bounded where
  listCount := by decide
  window := by decide
  active := by decide
  seeking := fun _ _ => rfl
  dark := fun _ _ => by decide
  candidates := fun sk h => by obtain rfl := Option.some.inj h; decide
  unlooked := fun sk h hn => by obtain rfl := Option.some.inj h; cases hn
  distinct := fun sk items h hi => by
    obtain rfl := Option.some.inj h
    obtain rfl := Option.some.inj hi
    decide

theorem witness_Lookback :
    let a := flight .cues 25 160 32 [] (.lookbackRead 0 4)
    let s := flying a cued reentering
    s.partState = .running ∧ s.InFlightAs 7 a ∧ a.aud = some 3 ∧ a.purpose = .lookbackRead 0 4
      ∧ s.isCurrent a = true ∧ 0 = (s.aud 3).seq.seekGen ∧ (s.aud 3).seq.seek = some lookingBack
      ∧ lookingBack.phase = .reentry
      ∧ lookingBack.lookback = some ({ index := 4, entry := none } :: [(3, heldEntry 1000), (2, heldEntry 500)].map
          fun x => { index := x.1, entry := some x.2 })
      ∧ (s.aud 3).seq.Bounded ∧ (s.aud 3).seq.window = [] :=
  ⟨rfl, inFlight_flying _ _ _ rfl, rfl, rfl, by decide, rfl, rfl, rfl, rfl, bounded_reentering, rfl⟩

/-- R71: the candidates come on the screen by start, of one start by index; a retracted entry is none of them. -/
theorem test_lookback_order :
    let a := flight .cues 25 160 32 [] (.lookbackRead 0 4)
    let screen := fun d => ((((after (exec (.lookbackReadComplete 7 (.ok d)) (flying a cued reentering))).aud
      3).seq.active[(0 : Channel)]).map fun x => x.cue.index)
    screen (cueBytes 0 0 0 1 0) = [2, 3, 4, 5] ∧ screen (cueBytes 0 0 0 1 1) = [2, 3, 5]
      ∧ screen (cueBytes 0 0 0 2 0) = [5] := by decide +kernel

/-- An entry read that fails, a scan read in the phase SCAN, a lookback read in REENTRY; a stale one, one of another
generation, and a lookback read out of its phase. -/
theorem witness_FailedEntryRead :
    let e := flight .cues 25 32 32 [] (.entryRead 0 0)
    let c := flight .cues 25 32 32 [] (.scanRead 0 0)
    let b := flight .cues 25 32 32 [] (.lookbackRead 0 0)
    let s := fun x a => { flying x cued a with houseTime := 192 }
    (s e fresh).partState = .running ∧ (s e fresh).InFlightAs 7 e ∧ e.aud = some 3
      ∧ (s e fresh).Ends e (.entryReadComplete 7 .error) true ∧ (s e fresh).Ends e (.readGiveUp 7) true
      ∧ (s e fresh).isCurrent e = true ∧ 0 = ((s e fresh).aud 3).seq.seekGen
      ∧ (s c (probing 5)).Ends c (.scanReadComplete 7 .error) true ∧ 0 = (probing 5).seq.seekGen
      ∧ (probing 5).seq.seek.map Seek.phase = some .scan
      ∧ (s b reentering).Ends b (.lookbackReadComplete 7 .error) true ∧ 0 = reentering.seq.seekGen
      ∧ reentering.seq.seek.map Seek.phase = some .reentry ∧ (flying e shown fresh).isCurrent e = false
      ∧ 1 ≠ fresh.seq.seekGen ∧ (probing 5).seq.seek.map Seek.phase ≠ some .reentry :=
  ⟨rfl, inFlight_alone rfl rfl, rfl, ⟨rfl, ⟨_, _, rfl⟩, rfl⟩, ⟨rfl, rfl, by decide, rfl⟩, by decide, rfl,
    ⟨rfl, ⟨_, _, rfl⟩, rfl⟩, rfl, rfl, ⟨rfl, ⟨_, _, rfl⟩, rfl⟩, rfl, rfl, by decide, by decide, by decide⟩

/-- R48, R189: a failed entry read of entry 2 makes a REGION_FAULT and then a SEQUENCER_FAULT of offset 96; a scan read
in REENTRY the first alone. -/
theorem test_sequencer_fault :
    let x := fun p => flight .cues 25 96 32 [] p
    let l := cued ++ [bindingOf .reports 28 127]
    let t := fun p c a => after (exec c (flying (x p) l { a with writer :=
      { bound := true, capacity := 4, writeCount := 0, readCount := 0, missed := 0 } }))
    let told := fun u : State => u.inFlight.map fun y => (byteAt y.data 8, y.data.drop 12)
    let e := t (.entryRead 0 2) (.entryReadComplete 7 .error) fresh
    let c := t (.scanRead 0 2) (.scanReadComplete 7 .error) reentering
    (told e).map Prod.fst = [Report.code (.regionFault .cues 25 .memory 96), Report.code (.sequencerFault 96)]
      ∧ ((told e).getD 1 (0, [])).2 = padTo 20 (leWord 96) ∧ (e.aud 3).seq.state = .faulted
      ∧ (told c).map Prod.fst = [Report.code (.regionFault .cues 25 .memory 96)]
      ∧ (c.aud 3).seq = reentering.seq := by decide +kernel

theorem witness_BlockRead :
    let a := flight .narrationA 27 0 512 [] (.blockRead .a 0 0)
    let r := { fresh.mixer.ringA with bound := true, capacity := 8, blocks := [{ number := 0, state := .reading }] }
    let s := flying a (shown ++ [bindingOf .narrationA 27 4095]) { fresh with mixer := { fresh.mixer with ringA := r } }
    s.partState = .running ∧ s.InFlightAs 7 a ∧ a.aud = some 3 ∧ a.purpose = .blockRead .a 0 0
      ∧ s.isCurrent a = true ∧ 0 = ((s.aud 3).mixer.ring .a).fetchGen
      ∧ ((s.aud 3).mixer.ring .a).blocks = [] ++ { number := 0, state := .reading } :: [] :=
  ⟨rfl, inFlight_flying _ _ _ rfl, rfl, rfl, by decide, rfl, rfl⟩

/-- Block reads that fail: of the oldest block, with a failed and a held one behind it, and of one behind another; a
stale one, and one of another fetch generation. -/
theorem witness_BlockRead_fails :
    let a := flight .narrationA 27 0 512 [] (.blockRead .a 0 1)
    let r := fun l => { fresh.mixer.ringA with bound := true, capacity := 8, blocks := l }
    let s := fun l => { flying a (shown ++ [bindingOf .narrationA 27 4095])
      { fresh with mixer := { fresh.mixer with ringA := r l } } with houseTime := 192 }
    let one : RingBlock := { number := 1, state := .reading }
    let old : RingBlock := { number := 0, state := .reading }
    let gone : RingBlock := { number := 2, state := .failed }
    let next : RingBlock := { number := 3, state := .reading }
    let t := fun l => ((after (exec (.blockReadComplete 7 .error) (s l))).aud 3).mixer.ringA
    (s [one]).Ends a (.blockReadComplete 7 .error) true ∧ (s [one]).Ends a (.readGiveUp 7) true
      ∧ (s [one]).isCurrent a = true ∧ (flying a shown fresh).isCurrent a = false
      ∧ (0 : Nat) ≠ ({ r [] with fetchGen := 1 } : Ring).fetchGen
      ∧ (∀ y ∈ [gone, next], y.number ≠ 1) ∧ (∀ y ∈ [old], y.number ≠ 1 ∧ y.state ≠ .failed)
      ∧ (t [one, gone, next]).blocks = [next] ∧ (t [one, gone, next]).take = 2
      ∧ (t [old, one]).blocks = [old, { one with state := .failed }] ∧ (t [old, one]).take = 0 :=
  ⟨⟨rfl, ⟨_, _, _, rfl⟩, rfl⟩, ⟨rfl, rfl, by decide, rfl⟩, by decide, by decide, by decide, by decide, by decide,
    by decide +kernel, by decide +kernel, by decide +kernel, by decide +kernel⟩

/-! ### Descriptors, the show record, memory errors -/

/-- A present descriptor. -/
def descriptorBytes (limit : Word) (kind : Byte) : List Byte :=
  leWord 0x10000 ++ leWord 0 ++ leWord limit ++ [kind, 1, 0, 0]

/-- Auditorium 3 with a batch in `phase`. -/
def waiting (phase : BatchPhase) (outstanding : List Nat) : Auditorium :=
  { fresh with unit := { fresh.unit with
      showState := .halted, firstHead := true
      batch := some { batchOf [] with phase := phase, outstanding := outstanding } } }

/-- A claim of each role under selector 30, on a descriptor of the least byte limit it may have. -/
theorem witness_Claim (role : Role) (kind : Byte) (least : Word)
    (h : (role, kind, least) ∈ [(Role.cues, 2#8, 31#32), (.payload, 3#8, 0#32), (.narrationA, 4#8, 1023#32),
      (.narrationB, 4#8, 1023#32), (.bed, 4#8, 1023#32), (.reports, 5#8, 127#32)]) :
    let a := { flight role 30 0 16 [] .claimRead with offset := 480 }
    let phase := BatchPhase.claiming 7 role 30 false true false
    let s := flying a shown (waiting phase [])
    let d := parseDescriptor (a.received (descriptorBytes least kind))
    s.partState = .running ∧ s.InFlightAs 7 a ∧ a.aud = some 3 ∧ a.purpose = .claimRead
      ∧ (s.aud 3).unit.batch = some { batchOf [] with phase := phase } ∧ (batchOf []).next < 8
      ∧ s.binding 3 .showRecord = some (bindingOf .showRecord 4 511) ∧ role ≠ .showRecord
      ∧ s.binding 3 .cues = none ∧ (∀ y ∈ s.bindings, y.selector ≠ 30) ∧ (∃ y ∈ s.bindings, y.selector = 4)
      ∧ d.present = true ∧ d.kind = kind ∧ d.limit = least ∧ d.base.toNat % 64 = 0 := by
  refine ⟨rfl, inFlight_flying _ _ _ rfl, rfl, rfl, rfl, by decide, rfl, ?_, rfl, ?_⟩
  · rintro rfl; simp at h
  · fin_cases h <;> decide

/-- R134: a NARRATION_A descriptor one byte too small is not fit. -/
theorem witness_Claim_unfit :
    (parseDescriptor ((flight .narrationA 30 0 16 [] .claimRead).received (descriptorBytes 1022 4))).limit.toNat
      < 1023 := by decide

/-- A claim whose descriptor read ends in an error, or gives up: refused with REGION, with a report. -/
theorem witness_Claim_fails :
    let a := { flight .cues 30 0 16 [] .claimRead with offset := 480 }
    let phase := BatchPhase.claiming 7 .cues 30 false true true
    let s := { flying a shown (waiting phase []) with houseTime := 192 }
    let t := after (exec (.descriptorReadComplete 7 .error) s)
    s.InFlightAs 7 a ∧ a.role = .cues ∧ a.selector = 30 ∧ a.offset = 16 * (30#8).toNat
      ∧ s.Ends a (.descriptorReadComplete 7 .error) true ∧ s.Ends a (.readGiveUp 7) true
      ∧ (s.aud 3).unit.batch = some { batchOf [] with phase := phase } ∧ (t.aud 3).writer.missed = 1
      ∧ t.inFlight.map (fun y => byteAt y.data 0) = [0x51] :=
  ⟨inFlight_alone rfl rfl, rfl, rfl, rfl, ⟨rfl, by decide, rfl⟩, ⟨rfl, rfl, by decide, rfl⟩, rfl,
    by decide +kernel, by decide +kernel⟩

/-- An access of the scan in flight under tag 7. -/
def scanFlight (selector : Byte) (data : List Byte) (purpose : Purpose) : Access :=
  { flight .showRecord selector 0 16 data purpose with aud := none }

/-- A SCANNING part with the accesses `l` in flight. -/
def scanning (l : List Access) : State :=
  { flying (scanFlight 39 [] .startScanRead) [] fresh with partState := .scanning, inFlight := l, latchedCount := 40 }

/-- The last access of the scan: a read of a descriptor that is not present, and a write. -/
theorem witness_LastScanRead :
    let a := scanFlight 39 [] .startScanRead
    let w := scanFlight 39 [0, 0] .startScanWrite
    (scanning [a]).partState = .scanning ∧ (scanning [a]).inFlight = [a] ∧ a.tag = 7 ∧ a.aud = none
      ∧ a.purpose = .startScanRead ∧ (parseDescriptor (a.received (List.replicate 16 0))).present = false
      ∧ (∀ k, ((scanning [a]).aud k).unit.showState = .dark) ∧ w.purpose = .startScanWrite ∧ w.tag = 7
      ∧ w.answer ≠ some false := by decide

/-- Reads of the scan of selectors 4 and 39 with another access in flight, and the descriptors: fit, and too small. -/
theorem witness_ScanRead :
    let a := scanFlight 4 [] .startScanRead
    let b := { scanFlight 39 [] .startScanRead with tag := 8 }
    let s := scanning [a, b]
    let d := fun limit => parseDescriptor (a.received (descriptorBytes limit 1))
    s.partState = .scanning ∧ (a ∈ s.inFlight ∧ a.tag = 7 ∧ ∀ x ∈ s.inFlight, x.tag = 7 → x = a) ∧ a.aud = none
      ∧ a.purpose = .startScanRead ∧ (s.inFlight.filter fun y => y.tag != 7) ≠ [] ∧ a.selector.toNat = 3 + 1
      ∧ ¬(1 ≤ b.selector.toNat ∧ b.selector.toNat ≤ 24) ∧ (d 511).present = true ∧ (d 511).kind = 1#8
      ∧ (d 511).limit.toNat = 511 ∧ (d 511).base.toNat % 64 = 0 ∧ (d 510).limit.toNat < 511 := by decide

/-- R145, R142: a fit show record of selector 4 is bound; its bound bytes wait for the clearing ones. -/
theorem test_scan_binds :
    let t := after (exec (.descriptorReadComplete 7 (.ok (descriptorBytes 511 1)))
      (scanning [scanFlight 4 [] .startScanRead]))
    t.bindings.map Binding.selector = [4] ∧ t.inFlight.map Access.data = [[0, 0], [0x81, 3]]
      ∧ t.inFlight.map t.mustWait = [false, true] := by decide +kernel

/-- A fit descriptor of a DARK auditorium, and one a byte too small. -/
theorem witness_DarkCheck :
    let a := flight .showRecord 4 0 16 [] .darkCheckRead
    let s := flying a [] fresh
    s.partState = .running ∧ s.InFlightAs 7 a ∧ a.aud = some 3 ∧ a.purpose = .darkCheckRead
      ∧ a.selector = BitVec.ofNat 8 (3 + 1) ∧ (s.aud 3).unit.showState = .dark
      ∧ (parseDescriptor (a.received (descriptorBytes 511 1))).unfit .showRecord = none
      ∧ (parseDescriptor (a.received (descriptorBytes 510 1))).unfit .showRecord ≠ none :=
  ⟨rfl, inFlight_flying _ _ _ rfl, rfl, rfl, by decide, by decide, by decide, by decide⟩

/-- A memory error of the scan: a descriptor read that fails, one that gives up, and a write the host refuses. -/
theorem witness_ScanFails :
    let a := scanFlight 4 [] .startScanRead
    let w := scanFlight 4 [0, 0] .startScanWrite
    let s := fun x => { scanning [x] with houseTime := 192 }
    (s a).partState = .scanning ∧ (s a).InFlightAs 7 a ∧ a.aud = none
      ∧ (s a).Ends a (.descriptorReadComplete 7 .error) true ∧ (s a).Ends a (.readGiveUp 7) true
      ∧ (s w).InFlightAs 7 w ∧ (s w).Ends w (.writeComplete 7 false) true :=
  ⟨rfl, inFlight_alone rfl rfl, rfl, ⟨rfl, by decide, rfl⟩, ⟨rfl, rfl, by decide, rfl⟩,
    inFlight_alone rfl rfl, ends_alone false rfl rfl rfl (by decide)⟩

/-- R183: the scan that fails with nothing else in flight stops the part; with another access it does not yet. -/
theorem test_scan_fails :
    let a := scanFlight 4 [] .startScanRead
    let t := fun l => after (exec (.descriptorReadComplete 7 .error) { scanning l with bindings := shown })
    (t [a]).partState = .stopped ∧ (t [a]).houseFault = true ∧ (t [a]).notice = true ∧ (t [a]).bindings = []
      ∧ (t [a, { a with tag := 8 }]).partState = .stopping := by decide +kernel

/-- A DARK check whose read fails, and one that gives up: HOUSE_FAULT, and no report is counted missed. -/
theorem witness_DarkCheck_fails :
    let a := flight .showRecord 4 0 16 [] .darkCheckRead
    let s := { flying a [] fresh with houseTime := 192 }
    let t := after (exec (.descriptorReadComplete 7 .error) s)
    s.InFlightAs 7 a ∧ a.purpose = .darkCheckRead ∧ s.Ends a (.descriptorReadComplete 7 .error) true
      ∧ s.Ends a (.readGiveUp 7) true ∧ t.houseFault = true ∧ (t.aud 3).unit.showState = .dark
      ∧ (t.aud 3).writer.missed = 0 :=
  ⟨inFlight_alone rfl rfl, rfl, ⟨rfl, by decide, rfl⟩, ⟨rfl, rfl, by decide, rfl⟩, by decide, by decide,
    by decide⟩

theorem witness_HeaderRead :
    let a := flight .cues 25 0 4 [] .headerRead
    let s := flying a cued (waiting (.counting 7 true) [])
    s.partState = .running ∧ s.InFlightAs 7 a ∧ a.aud = some 3 ∧ a.purpose = .headerRead ∧ s.isCurrent a = true
      ∧ (s.aud 3).unit.batch = some { batchOf [] with phase := .counting 7 true } ∧ (batchOf []).next < 8
      ∧ s.binding 3 .showRecord = some (bindingOf .showRecord 4 511)
      ∧ s.binding 3 .cues = some (bindingOf .cues 25 4095) :=
  ⟨rfl, inFlight_flying _ _ _ rfl, rfl, rfl, by decide, rfl, by decide, by decide, by decide⟩

/-- A cue list header read that fails, and one that gives up: TAKEN with a count of 0. -/
theorem witness_HeaderRead_fails :
    let a := flight .cues 25 0 4 [] .headerRead
    let s := { flying a cued (waiting (.counting 7 false) []) with houseTime := 192 }
    let t := after (exec (.cueListHeaderReadComplete 7 .error) s)
    s.InFlightAs 7 a ∧ a.role = .cues ∧ a.selector = (bindingOf .cues 25 4095).selector ∧ a.offset = 0
      ∧ s.Ends a (.cueListHeaderReadComplete 7 .error) true ∧ s.Ends a (.readGiveUp 7) true ∧ s.isCurrent a = true
      ∧ (t.aud 3).writer.missed = 1 ∧ t.bindings = cued ∧ t.inFlight.map (fun y => y.data.take 5) = [[1, 0, 0, 0, 0]] :=
  ⟨inFlight_alone rfl rfl, rfl, rfl, rfl, ⟨rfl, rfl, rfl⟩, ⟨rfl, rfl, by decide, rfl⟩, by decide,
    by decide +kernel, by decide +kernel, by decide +kernel⟩

/-- A head read that is the first, one that finds the generation unchanged, one that begins a batch, the next access
at the latest acknowledgement, and one issued just before it. -/
theorem witness_HeadRead :
    let a := flight .showRecord 4 0 64 [] .headRead
    let s := fun u => flying a shown { fresh with unit := u }
    let halted := { fresh.unit with showState := .halted }
    (s halted).partState = .running ∧ (s halted).InFlightAs 7 a ∧ a.aud = some 3 ∧ a.purpose = .headRead
      ∧ (s halted).isCurrent a = true ∧ (s halted).binding 3 .showRecord = some (bindingOf .showRecord 4 511)
      ∧ ((s halted).aud 3).unit.firstHead = false
      ∧ ((s { halted with firstHead := true }).aud 3).unit.firstHead = true
      ∧ wordAt (a.received (leWord 0)) 0 = halted.ackGeneration
      ∧ wordAt (a.received (leWord 1)) 0 ≠ halted.ackGeneration ∧ halted.batch = none
      ∧ { halted with headFrom := 7 }.headFrom ≤ 7 ∧ 7 < { halted with headFrom := 8 }.headFrom :=
  ⟨rfl, inFlight_flying _ _ _ rfl, rfl, rfl, by decide, by decide, by decide, by decide, by decide, by decide, rfl,
    by decide, by decide⟩

/-- A slot read whose slot 0 holds a directive, and one whose slot 0 is NONE. -/
theorem witness_SlotRead :
    let a := flight .showRecord 4 64 256 [] .slotRead
    let s := flying a shown (waiting .reading [])
    s.partState = .running ∧ s.InFlightAs 7 a ∧ a.aud = some 3 ∧ a.purpose = .slotRead ∧ s.isCurrent a = true
      ∧ (s.aud 3).unit.batch = some { batchOf [] with phase := .reading }
      ∧ s.binding 3 .showRecord = some (bindingOf .showRecord 4 511) ∧ byteAt (a.received [3]) 0 ≠ 0#8
      ∧ byteAt (a.received []) 0 = 0#8 :=
  ⟨rfl, inFlight_flying _ _ _ rfl, rfl, rfl, by decide, rfl, by decide, by decide +kernel, by decide +kernel⟩

/-- Show record accesses that fail: a head read that gives up at 192 ticks, head and slot reads with an error, a result
and a snapshot that the host refuses, an acknowledgement whose refusal was kept; and what takes part in none of it: an
abandoned write, a stale read, an access of a DARK auditorium, and a read 191 ticks old. -/
theorem witness_GiveUp :
    let x := fun data p => flight .showRecord 4 0 64 data p
    let h := { fresh with unit := { fresh.unit with showState := .halted } }
    let s := fun y => { flying y shown h with houseTime := 192 }
    let ack := { x [1] .ackWrite with answer := some false }
    (s (x [] .headRead)).partState = .running ∧ (s (x [] .headRead)).InFlightAs 7 (x [] .headRead)
      ∧ (x [] .headRead).aud = some 3 ∧ (s (x [] .headRead)).isCurrent (x [] .headRead) = true
      ∧ h.unit.showState ≠ .dark ∧ (s (x [] .headRead)).Ends (x [] .headRead) (.readGiveUp 7) true
      ∧ (s (x [] .headRead)).Ends (x [] .headRead) (.headReadComplete 7 .error) true
      ∧ (s (x [] .slotRead)).Ends (x [] .slotRead) (.slotReadComplete 7 .error) true
      ∧ (s (x [1] .resultWrite)).Ends (x [1] .resultWrite) (.writeComplete 7 false) true
      ∧ (s (x [1] .snapshotWrite)).Ends (x [1] .snapshotWrite) (.writeComplete 7 false) true
      ∧ (s ack).Ends ack (.ackWriteComplete 7 true) true ∧ ({ ack with live := false } : Access).live ≠ true
      ∧ (flying (x [] .headRead) [] h).isCurrent (x [] .headRead) = false ∧ fresh.unit.showState = .dark
      ∧ ((191#32 : Word) - (x [] .headRead).issued).toNat < 192 :=
  ⟨rfl, inFlight_alone rfl rfl, rfl, by decide, by decide, ⟨rfl, rfl, by decide, rfl⟩, ⟨rfl, rfl, rfl⟩,
    ⟨rfl, rfl, rfl⟩, ends_alone false rfl rfl rfl (by decide), ends_alone false rfl rfl rfl (by decide),
    ⟨rfl, by decide, rfl, fun y hy hlt => by
      obtain rfl := List.mem_singleton.mp hy
      exact absurd hlt (by decide)⟩, by decide, by decide, by decide, by decide⟩

/-- R148: a refused snapshot leaves the auditorium DARK with its rings and report ring unbound, its pending frame
counted and the frame in flight finishing, and a result write of its batch still in flight abandoned. -/
theorem test_show_fails :
    let a := flight .showRecord 4 320 192 [1] .snapshotWrite
    let r := { flight .showRecord 4 79 17 [1] .resultWrite with tag := 8 }
    let m := fresh.mixer
    let h := { fresh with
      unit := { fresh.unit with showState := .running }
      mixer := { m with ringB := { m.ringB with bound := true }, bed := { m.bed with bound := true } }
      link := { busy .sending with next := some anyFrame } }
    let t := after (exec (.writeComplete 7 false) { flying a shown h with inFlight := [a, r], nextTag := 9 })
    (t.aud 3).unit.showState = .dark ∧ (t.aud 3).mixer.ringB.bound = false ∧ (t.aud 3).mixer.bed.bound = false
      ∧ (t.aud 3).link = { busy .sending with dropped := 1, finishing := true } ∧ t.bindings = []
      ∧ t.inFlight = [{ r with live := false }] ∧ t.houseFault = true ∧ (t.aud 3).writer.missed = 1 := by
  decide +kernel

/-- The last write a batch waits for: a result that completes, binding bytes and a flag that complete and that fail; and
one with another write still in flight. -/
theorem witness_LastWrite :
    let r := flight .showRecord 4 79 17 [1] .resultWrite
    let b := flight .payload 30 480 2 [0, 0] .bindingWrite
    let f := flight .cues 25 50 1 [1] .flagWrite
    let s := fun y => flying y cued (waiting .ending [7])
    (s r).partState = .running ∧ (s r).InFlightAs 7 r ∧ r.aud = some 3 ∧ (s r).Ends r (.writeComplete 7 true) false
      ∧ (s b).InFlightAs 7 b ∧ (s b).Ends b (.writeComplete 7 true) false
      ∧ (s b).Ends b (.writeComplete 7 false) true ∧ (s f).InFlightAs 7 f ∧ (s f).Ends f (.writeComplete 7 true) false
      ∧ (s f).Ends f (.writeComplete 7 false) true
      ∧ ((s r).aud 3).unit.batch = some { batchOf [] with phase := .ending, outstanding := [7] }
      ∧ (s r).binding 3 .showRecord = some (bindingOf .showRecord 4 511)
      ∧ [7].filter (fun y => y != 7) = [] ∧ [7, 9].filter (fun y => y != 7) ≠ [] :=
  ⟨rfl, inFlight_flying _ _ _ rfl, rfl, ends_alone true rfl rfl rfl (by decide), inFlight_flying _ _ _ rfl,
    ends_alone true rfl rfl rfl (by decide), ends_alone false rfl rfl rfl (by decide), inFlight_flying _ _ _ rfl,
    ends_alone true rfl rfl rfl (by decide), ends_alone false rfl rfl rfl (by decide), rfl, by decide, by decide,
    by decide⟩

/-- R154: a flag write that fails is reported, here as missed, and then the batch is acknowledged. -/
theorem test_flag_write_fails :
    let f := flight .cues 25 50 1 [1] .flagWrite
    let t := after (exec (.writeComplete 7 false) (flying f cued (waiting .ending [7])))
    (t.aud 3).writer.missed = 1 ∧ t.inFlight.map Access.purpose = [.ackWrite]
      ∧ (t.aud 3).unit.ackGeneration = 9 := by decide +kernel

/-- A write that shares its first byte with an older write in flight. -/
theorem witness_WriteKept :
    ∃ y ∈ overlapped.inFlight, ∃ a, overlapped.InFlightAs 8 a ∧ a.purpose = .resultWrite ∧ y.tag < 8
      ∧ y.CommonByte a := by
  refine ⟨_, List.mem_cons_self .., _, ⟨List.mem_cons_of_mem _ (List.mem_singleton_self _), rfl, ?_⟩, rfl, by decide,
    1, 0, by decide, by decide, rfl⟩
  intro x hx ht
  rcases List.mem_cons.mp hx with rfl | hx
  · cases ht
  · exact List.mem_singleton.mp hx

/-- A write whose kept answer finds no earlier access in flight. -/
theorem witness_WritePosted :
    let a := { flight .showRecord 4 79 17 [1] .resultWrite with answer := some true }
    let s := flying a shown (waiting .ending [7])
    s.pending = [] ∧ a ∈ s.inFlight ∧ a.answer = some true ∧ ∀ y ∈ s.inFlight, y.tag < a.tag → ¬y.CommonByte a :=
  ⟨rfl, List.mem_singleton_self _, rfl, fun y hy hlt => by
    obtain rfl := List.mem_singleton.mp hy
    exact absurd hlt (by decide)⟩

/-- A read up to the last byte of the show record with writes in flight. -/
theorem witness_ReadSees :
    overlapped.binding 3 .showRecord = some (bindingOf .showRecord 4 511)
      ∧ 508 + 4 ≤ (bindingOf .showRecord 4 511).limit.toNat + 1 ∧ ∀ w ∈ overlapped.inFlight, w.data.length ≤ 512 := by
  decide

theorem witness_AckWrite :
    let a := flight .showRecord 4 320 4 [1, 0, 0, 0] .ackWrite
    let s := flying a shown (waiting .acking [])
    s.partState = .running ∧ s.InFlightAs 7 a ∧ a.aud = some 3 ∧ a.purpose = .ackWrite ∧ a.live = true
      ∧ s.InTurn a :=
  ⟨rfl, inFlight_flying _ _ _ rfl, rfl, rfl, rfl, inTurn_alone rfl rfl⟩

/-- An acknowledgement in flight, tag 7, with head reads issued before it, tags 6 and 8, and one not yet issued, 9. -/
def acking : State :=
  let a := { waiting .acking [] with unit := { (waiting .acking []).unit with firstHead := true } }
  let head := fun tag : Nat => { flight .showRecord 4 0 64 [] .headRead with tag := tag }
  { lone a with
    bindings := shown, nextTag := 9
    inFlight := [head 6, flight .showRecord 4 320 4 [1, 0, 0, 0] .ackWrite, head 8] }

theorem witness_AckWrite_earlier_head :
    let a := flight .showRecord 4 320 4 [1, 0, 0, 0] .ackWrite
    let h := { flight .showRecord 4 0 64 [] .headRead with tag := 8 }
    acking.partState = .running ∧ acking.InFlightAs 7 a ∧ acking.InTurn a ∧ acking.InFlightAs 8 h
      ∧ h.aud = some 3 ∧ h.purpose = .headRead ∧ 8 < acking.nextTag ∧ acking.isCurrent h = true
      ∧ (acking.aud 3).unit.firstHead = true := by
  refine ⟨rfl, ⟨by decide, rfl, by decide⟩, ⟨?_, by decide⟩, ⟨by decide, rfl, by decide⟩, rfl, rfl, by decide,
    by decide, rfl⟩
  simp only [← Access.shares_iff, Bool.not_eq_true]
  decide

/-- R154: of two head reads that find another generation after the acknowledgement, the one issued before it completed
begins no batch, and the one issued at the boundary after it begins one. -/
theorem test_head_read_across_ack :
    let head := leWord 77 ++ List.replicate 60 0
    let t := after (exec (.ackWriteComplete 7 true) acking)
    let u := after (exec (.headReadComplete 8 (.ok head)) t)
    let v := after (exec (.headReadComplete 9 (.ok head)) (u.readHead 3))
    (t.aud 3).unit.batch = none ∧ (u.aud 3).unit.batch = none
      ∧ (v.aud 3).unit.batch.map Batch.generation = some 77 := by decide +kernel

theorem witness_ReportWrite :
    let a := flight .reports 28 0 32 [1] .reportWrite
    let s := flying a shown fresh
    s.partState = .running ∧ s.InFlightAs 7 a ∧ a.aud = some 3 ∧ a.purpose = .reportWrite
      ∧ (∀ y ∈ s.inFlight, y.tag < 7 → ¬y.CommonByte a) ∧ a.answer = none :=
  let a := flight .reports 28 0 32 [1] .reportWrite
  ⟨rfl, inFlight_flying _ _ _ rfl, rfl, rfl, (inTurn_alone (x := a) (s := flying a shown fresh) rfl rfl).1, rfl⟩

/-- A ring of four entries with one place left, and full (11, a small ring filling). -/
theorem witness_Report :
    let w : Writer := { bound := true, capacity := 4, writeCount := 3, readCount := 0, missed := 0 }
    let s := { lone { fresh with writer := w } with bindings := shown ++ [bindingOf .reports 28 127] }
    s.partState = .running ∧ w.bound = true ∧ (w.writeCount - w.readCount).toNat < w.capacity
      ∧ s.binding 3 .reports = some (bindingOf .reports 28 127)
      ∧ w.capacity * 32 ≤ (bindingOf .reports 28 127).limit.toNat + 1
      ∧ w.capacity ≤ ((4#32 : Word) - w.readCount).toNat ∧ fresh.writer.bound = false := by decide

/-! ### Directives -/

/-- R153: a batch of two MARKs. After the first it comes to the second; after the second, at the first slot that is
NONE, it ends, with result 0 written into slots 2 to 7, and waits for those writes and the result. -/
theorem test_goes_on :
    let b := fun next : Nat =>
      { batchOf [] with slots := [[12], [12], [0], [12], [12], [12], [12], [12]], next := next }
    let s := fun next => { lone { fresh with unit := { fresh.unit with
      showState := .halted, firstHead := true, batch := some (b next) } } with bindings := shown }
    let t := fun next => after (exec (.mark 3) (s next))
    ((t 0).aud 3).unit.batch = some { b 1 with outstanding := [0] }
      ∧ ((t 1).aud 3).unit.batch = some { b 2 with phase := .ending, outstanding := [0, 1, 2, 3, 4, 5, 6] }
      ∧ (t 1).inFlight.map (fun a => (a.offset, a.length))
          = (111, 17) :: [2, 3, 4, 5, 6, 7].map fun n => (64 + 32 * n + 15, 1) := by decide +kernel

/-- BIND with the selectors at both ends of the accepted range, and with a bad role and a bad selector. -/
theorem witness_Bind :
    (taker .halted .empty [1, 7, 25] (shown ++ []) fresh).Standing 3 (.bind 3 7 25) (batchOf [1, 7, 25])
      ∧ (taker .running .empty [1, 2, 255] (shown ++ []) fresh).Standing 3 (.bind 3 2 255) (batchOf [1, 2, 255])
      ∧ (taker .halted (.firstSet 3) [1, 1, 25] (shown ++ []) fresh).Standing 3 (.bind 3 1 25) (batchOf [1, 1, 25])
      ∧ (taker .halted .empty [1, 7, 24] (shown ++ []) fresh).Standing 3 (.bind 3 7 24) (batchOf [1, 7, 24])
      ∧ (taker .halted .empty [1, 7, 25] (shown ++ []) fresh).latchedCount.toNat = 256 :=
  ⟨standing_taker _ _ _ _ _ _ (by decide) (by decide), standing_taker _ _ _ _ _ _ (by decide) (by decide),
    standing_taker _ _ _ _ _ _ (by decide) (by decide), standing_taker _ _ _ _ _ _ (by decide) (by decide), rfl⟩

/-- RELEASE of CUES held in HALTED, held in RUNNING, not held, and of the roles outside 2 to 7. -/
theorem witness_Release :
    (taker .halted .empty [2, 2] (shown ++ [bindingOf .cues 25 4095]) fresh).Standing 3 (.release 3 2) (batchOf [2, 2])
      ∧ (taker .halted .empty [2, 2] (shown ++ [bindingOf .cues 25 4095]) fresh).binding 3 .cues
          = some (bindingOf .cues 25 4095)
      ∧ (taker .running .empty [2, 2] (shown ++ [bindingOf .cues 25 4095]) fresh).Standing 3 (.release 3 2)
          (batchOf [2, 2])
      ∧ (taker .halted .empty [2, 2] (shown ++ []) fresh).Standing 3 (.release 3 2) (batchOf [2, 2])
      ∧ (taker .halted .empty [2, 2] (shown ++ []) fresh).binding 3 .cues = none ∧ Role.cues.code = 2#8
      ∧ (taker .halted .empty [2, 1] (shown ++ []) fresh).Standing 3 (.release 3 1) (batchOf [2, 1])
      ∧ (taker .halted .empty [2, 8] (shown ++ []) fresh).Standing 3 (.release 3 8) (batchOf [2, 8]) :=
  ⟨standing_taker _ _ _ _ _ _ (by decide) (by decide), by decide,
    standing_taker _ _ _ _ _ _ (by decide) (by decide), standing_taker _ _ _ _ _ _ (by decide) (by decide), by decide,
    by decide, standing_taker _ _ _ _ _ _ (by decide) (by decide), standing_taker _ _ _ _ _ _ (by decide) (by decide)⟩

/-- RUN in each show state, and in HALTED with nothing to play, with CUES alone, and with CUES and PAYLOAD. -/
theorem witness_Run :
    (∀ x, x ≠ ShowState.dark → (taker x .empty [3] (shown ++ []) fresh).Standing 3 (.run 3) (batchOf [3]))
      ∧ (taker .halted .empty [3] (shown ++ []) fresh).holdsRole 3 .cues = false
      ∧ (taker .halted .empty [3] (shown ++ []) fresh).holdsRole 3 .narrationA = false
      ∧ (taker .halted .empty [3] (shown ++ [bindingOf .cues 25 4095]) fresh).holdsRole 3 .cues = true
      ∧ (taker .halted .empty [3] (shown ++ [bindingOf .cues 25 4095]) fresh).holdsRole 3 .payload = false
      ∧ (taker .halted .empty [3] cued fresh).Standing 3 (.run 3) (batchOf [3])
      ∧ (taker .halted .empty [3] cued fresh).holdsRole 3 .cues = true
      ∧ (taker .halted .empty [3] cued fresh).holdsRole 3 .payload = true :=
  ⟨fun _ h => standing_taker _ _ _ _ _ _ h (by decide), by decide, by decide, by decide, by decide,
    standing_taker _ _ _ _ _ _ (by decide) (by decide), by decide, by decide⟩

theorem witness_Halt (x : ShowState) (h : x ≠ .dark) :
    (taker x .empty [4] (shown ++ []) { fresh with clock := hardClock .locked }).Standing 3 (.halt 3) (batchOf [4]) :=
  standing_taker _ _ _ _ _ _ h (by decide)

/-- SET_CHANNELS at the ends of its ranges, one past an end, and one that restates the masks and the address. -/
theorem witness_SetChannels :
    (taker .halted .empty [5, 15, 3, 3, 255, 1, 63] (shown ++ []) fresh).Standing 3 (.setChannels 3 15 3 3 255 1 63)
        (batchOf [5, 15, 3, 3, 255, 1, 63])
      ∧ (taker .halted .empty [5, 15, 3, 3, 255, 1, 64] (shown ++ []) fresh).Standing 3
          (.setChannels 3 15 3 3 255 1 64) (batchOf [5, 15, 3, 3, 255, 1, 64])
      ∧ (taker .running .empty [5, 15, 3, 3, 255, 1, 63] (shown ++ []) fresh).Standing 3
          (.setChannels 3 15 3 3 255 1 63) (batchOf [5, 15, 3, 3, 255, 1, 63])
      ∧ (taker .running .empty [5, 15, 3, 3, 0, 1, 3] (shown ++ []) fresh).Standing 3 (.setChannels 3 15 3 3 0 1 3)
          (batchOf [5, 15, 3, 3, 0, 1, 3])
      ∧ fresh.unit.channels.address.toNat = 3 :=
  ⟨standing_taker _ _ _ _ _ _ (by decide) (by decide), standing_taker _ _ _ _ _ _ (by decide) (by decide),
    standing_taker _ _ _ _ _ _ (by decide) (by decide), standing_taker _ _ _ _ _ _ (by decide) (by decide), by decide⟩

/-- SET_LOOP with PM 15, trim 4800 and every other argument at an end of its field; and with trim 4801. -/
theorem witness_SetLoop :
    (taker .running .empty [6, 0, 0x80, 255, 0x7F, 0, 0, 15, 255, 255, 0, 0xC0, 0x12] (shown ++ []) fresh).Standing 3
        (.setLoop 3 0x8000 0x7FFF 0 15 0xFFFF 0 0x12C0)
        (batchOf [6, 0, 0x80, 255, 0x7F, 0, 0, 15, 255, 255, 0, 0xC0, 0x12])
      ∧ ¬(15 < (15#8).toNat ∨ (0x12C0#16).toInt < -4800 ∨ 4800 < (0x12C0#16).toInt)
      ∧ (taker .running .empty [6, 0, 0, 0, 0, 0, 0, 0, 0, 0, 0, 0xC1, 0x12] (shown ++ []) fresh).Standing 3
          (.setLoop 3 0 0 0 0 0 0 0x12C1) (batchOf [6, 0, 0, 0, 0, 0, 0, 0, 0, 0, 0, 0xC1, 0x12])
      ∧ 4800 < (0x12C1#16).toInt :=
  ⟨standing_taker _ _ _ _ _ _ (by decide) (by decide), by decide,
    standing_taker _ _ _ _ _ _ (by decide) (by decide), by decide⟩

/-- SET_MIX with gd above gb and with attack and release 0. -/
theorem witness_SetMix :
    (taker .running (.firstSet 0) [7, 1, 0, 2, 0, 3, 0, 0, 0, 0, 0] (shown ++ []) fresh).Standing 3
      (.setMix 3 1 2 3 0 0) (batchOf [7, 1, 0, 2, 0, 3, 0, 0, 0, 0, 0]) :=
  standing_taker _ _ _ _ _ _ (by decide) (by decide)

theorem witness_Mark :
    (taker .closing (.firstSet 0) [12] (shown ++ []) fresh).Standing 3 (.mark 3) (batchOf [12]) :=
  standing_taker _ _ _ _ _ _ (by decide) (by decide)

/-- Auditorium 3 with a list of 2000 cues. -/
def listed : Auditorium := { fresh with seq := { fresh.seq with listCount := 2000 } }

/-- TAG_FIRST of the last cue of the list, of the one past it, and without CUES. -/
theorem witness_TagFirst :
    (taker .running .empty [8, 0xCF, 7] cued listed).Standing 3 (.tagFirst 3 1999) (batchOf [8, 0xCF, 7])
      ∧ ((taker .running .empty [8, 0xCF, 7] cued listed).binding 3 .cues).isSome = true
      ∧ ((taker .running .empty [8, 0xCF, 7] cued listed).aud 3).seq.listCount = 2000
      ∧ (taker .running .empty [8, 0xD0, 7] cued listed).Standing 3 (.tagFirst 3 2000) (batchOf [8, 0xD0, 7])
      ∧ (taker .running .empty [8, 0, 0] (shown ++ []) fresh).Standing 3 (.tagFirst 3 0) (batchOf [8, 0, 0])
      ∧ ((taker .running .empty [8, 0, 0] (shown ++ []) fresh).binding 3 .cues).isSome = false :=
  ⟨standing_taker _ _ _ _ _ _ (by decide) (by decide), by decide, by decide,
    standing_taker _ _ _ _ _ _ (by decide) (by decide), standing_taker _ _ _ _ _ _ (by decide) (by decide), by decide⟩

/-- TAG_LAST 1023 past first, 1024 past it, and out of FIRST_SET. -/
theorem witness_TagLast :
    (taker .running (.firstSet 5) [9, 4, 4] cued listed).Standing 3 (.tagLast 3 1028) (batchOf [9, 4, 4])
      ∧ (taker .running (.firstSet 5) [9, 5, 4] cued listed).Standing 3 (.tagLast 3 1029) (batchOf [9, 5, 4])
      ∧ (taker .running (.firstSet 5) [9, 4, 0] cued listed).Standing 3 (.tagLast 3 4) (batchOf [9, 4, 0])
      ∧ (taker .running .empty [9, 4, 0] cued listed).Standing 3 (.tagLast 3 4) (batchOf [9, 4, 0])
      ∧ 1028 - 5 < 1024 ∧ 1024 ≤ 1029 - 5 ∧ (1028#16).toNat = 1028 ∧ TagState.empty ≠ .firstSet 5 :=
  ⟨standing_taker _ _ _ _ _ _ (by decide) (by decide), standing_taker _ _ _ _ _ _ (by decide) (by decide),
    standing_taker _ _ _ _ _ _ (by decide) (by decide), standing_taker _ _ _ _ _ _ (by decide) (by decide), by decide,
    by decide, by decide, by decide⟩

/-- UNTAG of both ends of a range, of one listed already, of a ninth, and of one past the range. -/
theorem witness_Untag :
    (taker .running (.rangeSet 5 40 []) [10, 5, 0] cued listed).Standing 3 (.untag 3 5) (batchOf [10, 5, 0])
      ∧ (taker .running (.rangeSet 5 40 [40]) [10, 40, 0] cued listed).Standing 3 (.untag 3 40) (batchOf [10, 40, 0])
      ∧ (taker .running (.rangeSet 5 40 [6, 7, 8, 9, 10, 11, 12, 13]) [10, 20, 0] cued listed).Standing 3
          (.untag 3 20) (batchOf [10, 20, 0])
      ∧ (taker .running (.rangeSet 5 40 []) [10, 41, 0] cued listed).Standing 3 (.untag 3 41) (batchOf [10, 41, 0])
      ∧ (taker .running (.firstSet 5) [10, 41, 0] cued listed).Standing 3 (.untag 3 41) (batchOf [10, 41, 0])
      ∧ 20 ∉ [6, 7, 8, 9, 10, 11, 12, 13] ∧ 40 ∈ [40] :=
  ⟨standing_taker _ _ _ _ _ _ (by decide) (by decide), standing_taker _ _ _ _ _ _ (by decide) (by decide),
    standing_taker _ _ _ _ _ _ (by decide) (by decide), standing_taker _ _ _ _ _ _ (by decide) (by decide),
    standing_taker _ _ _ _ _ _ (by decide) (by decide), by decide, by decide⟩

/-- A show that has come to cue 10, with cue 8 on channel 0 and cue 10 staged. -/
def amid : Auditorium :=
  { fresh with seq := { fresh.seq with
      state := .walking, listCount := 20, cursor := 10, window := [newSlot 10]
      active := fresh.seq.active.set 0
        [{ cue := { epoch := 1, index := 8 }, start := 0, finish := 9, row := 1, style := 0, text := none
           reentered := false }] } }

/-- RETRACT of cues 7 to 10: 7 is past, 8 is active, 10 is staged; and each refusal. -/
theorem witness_Retract :
    (taker .running (.rangeSet 7 10 [9]) [11] cued amid).Standing 3 (.retract 3) (batchOf [11])
      ∧ (taker .running (.rangeSet 7 10 [9]) [11] cued amid).binding 3 .cues = some (bindingOf .cues 25 4095)
      ∧ 32 + 32 * 10 + 18 ≤ (bindingOf .cues 25 4095).limit.toNat ∧ amid.seq.state ≠ .seeking
      ∧ (∀ c : Channel, (amid.seq.active[c].map fun y => y.cue.index).Nodup)
      ∧ (∀ c d : Channel, ∀ y ∈ amid.seq.active[c], ∀ z ∈ amid.seq.active[d], y.cue.index = z.cue.index → c = d)
      ∧ (taker .running (.rangeSet 7 10 [9]) [11] cued (probing 5)).Standing 3 (.retract 3) (batchOf [11])
      ∧ (probing 5).seq.state = .seeking
      ∧ (taker .running (.firstSet 7) [11] cued amid).Standing 3 (.retract 3) (batchOf [11])
      ∧ (taker .running .empty [11] (shown ++ []) fresh).Standing 3 (.retract 3) (batchOf [11]) :=
  ⟨standing_taker _ _ _ _ _ _ (by decide) (by decide), by decide, by decide, by decide, by decide, by decide,
    standing_taker _ _ _ _ _ _ (by decide) (by decide), rfl, standing_taker _ _ _ _ _ _ (by decide) (by decide),
    standing_taker _ _ _ _ _ _ (by decide) (by decide)⟩

/-- R173, R174, R52: of cues 7 to 11 but 9 the flags of 8, 10 and 11 are written, in this order; slot 10 alone takes the
mark, and the record of cue 8 leaves the Builder. -/
theorem test_retract :
    let a := { amid with
      seq := { amid.seq with window := [newSlot 10, newSlot 12] }
      builder := { amid.builder with records := [
        { cue := { epoch := 1, index := 8 }, channel := 0, reentered := false, textHeld := true, aired := true
          countdown := 1 }] } }
    let t := after (exec (.retract 3) (taker .running (.rangeSet 7 11 [9]) [11] cued a))
    (t.inFlight.filter fun y => y.purpose == .flagWrite).map Access.offset = [306, 370, 402]
      ∧ (t.aud 3).seq.window = [{ newSlot 10 with retracted := true }, newSlot 12]
      ∧ (t.aud 3).builder.records = []
      ∧ (t.aud 3).builder.queue.map QueueEntry.cue = [some { epoch := 1, index := 8 }] := by decide +kernel

theorem witness_UnknownKind :
    (taker .running (.firstSet 7) [13] (shown ++ []) fresh).Standing 3 (.unknownDirective 3 13) (batchOf [13])
      ∧ (taker .running .empty [255] (shown ++ []) fresh).Standing 3 (.unknownDirective 3 255) (batchOf [255]) :=
  ⟨standing_taker _ _ _ _ _ _ (by decide) (by decide), standing_taker _ _ _ _ _ _ (by decide) (by decide)⟩

/-! ### States that have the kept properties, with every auditorium at work -/

/-- A RUNNING part with auditorium `k` as `f k`. -/
def everywhere (f : Aud → Auditorium) : State := { (State.reset.mapAuds fun k _ => f k) with partState := .running }

theorem everywhere_aud (f : Aud → Auditorium) (k : Aud) : (everywhere f).aud k = f k :=
  State.aud_mapAuds State.reset (fun k _ => f k) k

/-- A message half assembled and a clock at the ends of its ranges. -/
def tuned (k : Aud) : Auditorium :=
  { Auditorium.initial k with
    clock := hardClock .acquiring
    receiver := { Receiver.initial with
      state := .assembling, buffer := [0xA5, 1], firstTick := some 0, latestTick := some 0 } }

theorem witness_ReceiversAndClocks :
    (∀ k, ((everywhere tuned).aud k).receiver.Sound ∧ ((everywhere tuned).aud k).clock.Within)
      ∧ ∃ t, step (everywhere tuned) = .next t := by
  refine ⟨fun k => ?_, _, rfl⟩
  rw [everywhere_aud]
  exact ⟨⟨fun h => (nomatch h), fun _ => ⟨rfl, by show 2 ≤ 9; decide, rfl, rfl⟩⟩, within_hardClock _⟩

/-- A DOWN link with a retry due. -/
def stuck (k : Aud) : Auditorium :=
  { Auditorium.initial k with link := { Link.initial k with
      state := .waiting, frame := some { anyFrame with auditorium := k }, retryDue := true, retry := true
      unanswered := 50, down := true } }

theorem witness_Links :
    (∀ k, ((everywhere stuck).aud k).link.Sound ∧ ((everywhere stuck).aud k).link.Fits k)
      ∧ ∃ t, step (everywhere stuck) = .next t := by
  refine ⟨fun k => ?_, _, rfl⟩
  rw [everywhere_aud]
  refine ⟨⟨⟨fun h => (nomatch h), fun h => (nomatch h)⟩, fun h => (nomatch h), fun _ => rfl, by show 50 ≤ 50; decide,
    ⟨fun _ => rfl, fun _ => rfl⟩⟩, ⟨fun f h => ?_, fun f h => (nomatch h)⟩⟩
  cases h
  exact ⟨rfl, by show anyFrame.payload ≤ 1536; decide⟩

/-- A walk with two slots staged. -/
def walking (k : Aud) : Auditorium :=
  { Auditorium.initial k with
    seq := { Sequencer.initial with
      state := .walking, cursor := 7, listCount := 9, window := [loaded 7 900 3000, newSlot 8] }
    unit := { DirectiveUnit.initial k with showState := .running } }

/-- A RUNNING part with nothing in flight keeps what its part state promises. -/
theorem partSound_everywhere (f : Aud → Auditorium) (l : List Binding) :
    ({ everywhere f with bindings := l } : State).PartSound where
  dark := fun h => absurd rfl h
  unbound := fun h => h.elim (fun h => (nomatch h)) fun h => (nomatch h)
  idle := fun h => h.elim (fun h => (nomatch h)) fun h => (nomatch h)
  quiet := fun h => (nomatch h)
  scanBindings := fun h => (nomatch h)
  scanReads := fun h => (nomatch h)
  owned := fun _ _ h => (nomatch h)

theorem witness_Window :
    (everywhere walking).PartSound
      ∧ (∀ k, ((everywhere walking).aud k).seq.Bounded ∧ ((everywhere walking).aud k).Follows)
      ∧ ∃ t, step (everywhere walking) = .next t := by
  refine ⟨partSound_everywhere walking [], fun k => ?_, _, rfl⟩
  rw [everywhere_aud]
  exact ⟨⟨by show 9 ≤ 65535; decide, by show 2 ≤ 16; decide,
      by show ∀ c : Channel, (Sequencer.initial.active[c]).length ≤ 4; decide,
      fun sk h => (nomatch h), fun sk h => (nomatch h), fun sk h => (nomatch h), fun sk h => (nomatch h),
      fun sk items h => (nomatch h)⟩,
    ⟨rfl, by show 9 ≤ 9; decide, fun sk h => (nomatch h), fun sk h => (nomatch h), fun h => absurd rfl h,
      fun b tag r h => (nomatch h), fun b tag sel held r h => (nomatch h)⟩⟩

/-- A walk with a cue on screen, its air record and its START queued, a ring with a block of one sample, and a range of
one cue left out. -/
def airing (k : Aud) : Auditorium :=
  { walking k with
    seq := { (walking k).seq with active := Sequencer.initial.active.set 0 [onScreen 0 9000] }
    mixer := { Mixer.initial with ringA := { Ring.initial with
      blocks := [{ number := 0, state := .held { start := 2, silent := false, last := false, samples := [5] } }] } }
    builder := { Builder.initial with
      queue := [{ kind := .start, channel := 0, cue := some { epoch := 1, index := 0 }, copies := 4, waiting := true }]
      records := [{ cue := { epoch := 1, index := 0 }, channel := 0, reentered := false, textHeld := false
                    aired := false, countdown := 250 }] }
    unit := { (walking k).unit with tag := .rangeSet 5 5 [5] } }

theorem seqSound_airing (k : Aud) : (airing k).seq.Bounded ∧ (airing k).Follows :=
  ⟨⟨by show 9 ≤ 65535; decide, by show 2 ≤ 16; decide,
      by show ∀ c : Channel, ((Sequencer.initial.active.set 0 [onScreen 0 9000])[c]).length ≤ 4; decide,
      fun sk h => (nomatch h), fun sk h => (nomatch h), fun sk h => (nomatch h), fun sk h => (nomatch h),
      fun sk items h => (nomatch h)⟩,
    ⟨rfl, by show 9 ≤ 9; decide, fun sk h => (nomatch h), fun sk h => (nomatch h), fun h => absurd rfl h,
      fun b tag r h => (nomatch h), fun b tag sel held r h => (nomatch h)⟩⟩

theorem carries_airing (k : Aud) : (airing k).Carries where
  distinct := by
    show ∀ c : Channel, (((Sequencer.initial.active.set 0 [onScreen 0 9000])[c]).map ActiveCue.cue).Nodup
    decide
  below := by
    show ∀ c : Channel, ∀ y ∈ (Sequencer.initial.active.set 0 [onScreen 0 9000])[c], y.cue.index < 7
    decide
  walking := fun h => absurd rfl h
  records := by show [({ epoch := 1, index := 0 } : CueId)].Nodup; decide
  onScreen := fun r hr => by
    obtain rfl := List.mem_singleton.mp hr
    exact ⟨Tests.onScreen 0 9000, List.mem_singleton_self _, rfl⟩
  rest := fun h => absurd rfl h
  looking := fun sk items h => (nomatch h)
  closing := fun h => (nomatch h)

theorem witness_Bounded :
    (everywhere airing).PartSound
      ∧ (∀ k, ((everywhere airing).aud k).seq.Bounded ∧ ((everywhere airing).aud k).Follows)
      ∧ (∀ k, ((everywhere airing).aud k).mixer.Bounded ∧ ((everywhere airing).aud k).builder.Bounded
        ∧ ((everywhere airing).aud k).unit.channels.Within ∧ ((everywhere airing).aud k).unit.tag.Sound
        ∧ ((everywhere airing).aud k).Carries)
      ∧ ∃ t, step (everywhere airing) = .next t := by
  refine ⟨partSound_everywhere airing [], fun k => ?_, fun k => ?_, _, rfl⟩
  · rw [everywhere_aud]; exact seqSound_airing k
  rw [everywhere_aud]
  refine ⟨⟨⟨by show 1 ≤ 3; decide, fun b hb blk h => ?_⟩, ⟨by show 0 ≤ 3; decide, fun b hb => (nomatch hb)⟩,
    ⟨by show 0 ≤ 3; decide, fun b hb => (nomatch hb)⟩, by show 0 ≤ 65535; decide, by show 0 ≤ 65535; decide,
    by show 0 ≤ 0; decide, by show 1 ≤ 64; decide, by show 1 ≤ 16; decide⟩,
    ⟨by show 1 ≤ 32; decide, by show 1 ≤ 16; decide, fun e he => ?_, fun r hr => ?_, by show 0 ≤ 4; decide,
    by show [some ({ epoch := 1, index := 0 } : CueId)].Nodup; decide⟩, ⟨by show 1 ≤ 3; decide,
    by show 5 ≤ 100 ∧ 100 ≤ 250; decide⟩, by show 5 ≤ 5 ∧ 5 - 5 < 1024 ∧ [5].length ≤ 8 ∧ [5].Nodup ∧ _; decide,
    carries_airing k⟩
  · obtain rfl := List.mem_singleton.mp hb
    cases h
    exact ⟨by decide, by decide, by decide⟩
  · obtain rfl := List.mem_singleton.mp he
    exact ⟨by show 1 ≤ 4; decide, by show 4 ≤ 4; decide⟩
  · obtain rfl := List.mem_singleton.mp hr
    show 250 ≤ 250; decide

/-- A HALTED auditorium 3 with its show record, CUES and PAYLOAD, in a RUNNING part. -/
def bound3 : State := { everywhere (fun k => { Auditorium.initial k with
  unit := { DirectiveUnit.initial k with showState := .halted } }) with bindings := cued }

theorem bound3_aud (k : Aud) : (bound3.aud k).unit.showState = .halted ∧ (bound3.aud k).unit.batch = none := by
  have h : bound3.aud k = { Auditorium.initial k with
      unit := { DirectiveUnit.initial k with showState := .halted } } := everywhere_aud _ k
  rw [h]; exact ⟨rfl, rfl⟩

theorem partSound_bound3 : bound3.PartSound := partSound_everywhere _ cued

theorem witness_PartState : bound3.PartSound ∧ ∃ t, step bound3 = .next t := ⟨partSound_bound3, _, rfl⟩

theorem witness_Map : bound3.PartSound ∧ bound3.MapSound ∧ ∃ t, step bound3 = .next t := by
  refine ⟨partSound_bound3, ⟨?_, ?_, ?_, ?_, ?_, ?_, ?_, ?_, ?_⟩, _, rfl⟩
  · decide
  · decide
  · decide
  · intro _ b _
    rw [(bound3_aud b.aud).1]; decide
  · exact List.Pairwise.nil
  · exact fun a h => (nomatch h)
  · exact fun a h => (nomatch h)
  · exact fun a h => (nomatch h)
  · intro k b role selector held h
    rw [(bound3_aud k).2] at h; cases h

end Sys2Proof.Tests
end

section
/-! SUPPORT. The accesses that deciding a result issues, one for one, and that the batch goes on from them
(R153, R154). -/

namespace Sys2Proof.Machine

/-! ## Updates of one auditorium compose -/

theorem State.modAud_modAud (s : State) (k : Aud) (f g : Auditorium → Auditorium) :
    (s.modAud k f).modAud k g = s.modAud k fun a => g (f a) := by
  unfold State.modAud
  rw [State.aud_setAud_same]
  simp [State.setAud]

theorem State.modAud_id (s : State) (k : Aud) : (s.modAud k fun a => a) = s := by
  simp [State.modAud, State.setAud, State.aud]

/-! ## What the writes of a batch leave in flight -/

/-- The access `a` is a result write through `x`, issued at or after `s` in the same house tick. -/
structure Access.IsResultWrite (a : Access) (s : State) (x : Binding) : Prop where
  tag : s.nextTag ≤ a.tag
  issued : a.issued = s.houseTime
  aud : a.aud = some x.aud
  role : a.role = x.role
  selector : a.selector = x.selector
  epoch : a.epoch = x.epoch
  address : a.address = x.base + BitVec.ofNat 64 a.offset
  length : a.length = a.data.length
  purpose : a.purpose = .resultWrite

/-- From `s` to `t` exactly the accesses `made` were issued: the result writes through `x` of `writes`, each an
offset with its bytes, in this order. -/
structure State.ResultsMade (s t : State) (x : Binding) (writes : List (Nat × List Byte)) (made : List Access) :
    Prop where
  inFlight : t.inFlight = s.inFlight ++ made
  writes : made.map (fun a => (a.offset, a.data)) = writes
  each : ∀ a ∈ made, a.IsResultWrite s x
  nextTag : s.nextTag ≤ t.nextTag
  houseTime : t.houseTime = s.houseTime

theorem State.ResultsMade.none (s : State) (x : Binding) : State.ResultsMade s s x [] [] where
  inFlight := (List.append_nil _).symm
  writes := rfl
  each := fun _ h => (nomatch h)
  nextTag := le_rfl
  houseTime := rfl

theorem State.ResultsMade.trans {s t u : State} {x : Binding} {w v : List (Nat × List Byte)} {m n : List Access}
    (h : State.ResultsMade s t x w m) (g : State.ResultsMade t u x v n) :
    State.ResultsMade s u x (w ++ v) (m ++ n) where
  inFlight := by rw [g.inFlight, h.inFlight, List.append_assoc]
  writes := by rw [List.map_append, h.writes, g.writes]
  each := fun a ha => (List.mem_append.mp ha).elim (h.each a) fun hn =>
    { g.each a hn with tag := h.nextTag.trans (g.each a hn).tag, issued := (g.each a hn).issued.trans h.houseTime }
  nextTag := h.nextTag.trans g.nextTag
  houseTime := g.houseTime.trans h.houseTime

/-- An update of the blocks issues no access. -/
theorem State.ResultsMade.then_modAud {s t : State} {x : Binding} {w : List (Nat × List Byte)} {m : List Access}
    (h : State.ResultsMade s t x w m) (k : Aud) (f : Auditorium → Auditorium) :
    State.ResultsMade s (t.modAud k f) x w m :=
  ⟨h.inFlight, h.writes, h.each, h.nextTag, h.houseTime⟩

/-- Each write made is issued in the statements' sense. -/
theorem State.ResultsMade.issued {s t : State} {k : Aud} {x : Binding} {w : List (Nat × List Byte)}
    {m : List Access} (h : State.ResultsMade s t x w m) (hx : s.binding k .showRecord = some x) {offset : Nat}
    {data : List Byte} (hw : (offset, data) ∈ w) :
    s.Issued t k .showRecord offset data.length data .resultWrite := by
  rw [← h.writes] at hw
  obtain ⟨a, ha, heq⟩ := List.mem_map.mp hw
  obtain ⟨rfl, rfl⟩ := Prod.mk.inj heq
  obtain ⟨_, hk, hr⟩ := State.binding_some hx
  have e := h.each a ha
  exact ⟨x, hx, a, h.inFlight ▸ List.mem_append_right _ ha, e.tag, e.issued, hk ▸ e.aud, hr ▸ e.role,
    e.selector, e.epoch, rfl, e.address, e.length, rfl, e.purpose⟩

/-- The one-byte writes among those made are those of one byte (R153: result 0). -/
theorem State.ResultsMade.oneByte {s t : State} {x : Binding} {w : List (Nat × List Byte)} {m : List Access}
    (h : State.ResultsMade s t x w m) :
    (m.filter fun a => a.purpose == .resultWrite && a.length == 1).map Access.offset
      = (w.filter fun v => v.2.length == 1).map Prod.fst := by
  rw [← h.writes, List.filter_map, List.map_map]
  refine congrArg (List.map Access.offset) (List.filter_congr fun a ha => ?_)
  simp [(h.each a ha).purpose, (h.each a ha).length]

/-- A batch's write within the show record is made, and the batch waits for it alone. -/
theorem State.batchWrite_resultsMade {s : State} {k : Aud} {x : Binding} (hx : s.binding k .showRecord = some x)
    {offset : Nat} {data : List Byte} (hl : offset + data.length - 1 ≤ x.limit.toNat) :
    ∃ made, State.ResultsMade s (s.batchWrite k offset data) x [(offset, data)] made ∧
      ((s.batchWrite k offset data).aud k).unit = (s.aud k).unit.waitFor (made.map Access.tag) := by
  rw [State.batchWrite_made hx hl]
  refine ⟨_, ⟨rfl, rfl, fun a ha => ?_, Nat.le_succ _, rfl⟩, by rw [State.aud_modAud_same]; rfl⟩
  obtain rfl := List.mem_singleton.mp ha
  exact ⟨le_rfl, rfl, rfl, rfl, rfl, rfl, rfl, rfl, rfl⟩

theorem State.batchWrite_binding (s : State) (k : Aud) (offset : Nat) (data : List Byte) (j : Aud) (role : Role) :
    (s.batchWrite k offset data).binding j role = s.binding j role := by
  unfold State.binding
  rw [(s.onlyAud_batchWrite k offset data).bindings]

/-- The same bytes written at several places within the show record. -/
theorem State.batchWrites_resultsMade {k : Aud} {x : Binding} (data : List Byte) (off : Nat → Nat) (l : List Nat)
    (hl : ∀ i ∈ l, off i + data.length - 1 ≤ x.limit.toNat) :
    ∀ s : State, s.binding k .showRecord = some x →
      ∃ made, State.ResultsMade s (l.foldl (fun s i => s.batchWrite k (off i) data) s) x
          (l.map fun i => (off i, data)) made ∧
        ((l.foldl (fun s i => s.batchWrite k (off i) data) s).aud k).unit
          = (s.aud k).unit.waitFor (made.map Access.tag) := by
  induction l with
  | nil => exact fun s _ => ⟨[], .none s x, (DirectiveUnit.waitFor_nil _).symm⟩
  | cons i rest ih =>
    intro s hx
    obtain ⟨first, hfirst, ufirst⟩ := State.batchWrite_resultsMade hx (hl i List.mem_cons_self)
    obtain ⟨others, hothers, uothers⟩ := ih (fun j hj => hl j (List.mem_cons_of_mem i hj)) _
      ((s.batchWrite_binding k (off i) data k .showRecord).trans hx)
    refine ⟨first ++ others, hfirst.trans hothers, ?_⟩
    rw [List.foldl_cons, uothers, ufirst, DirectiveUnit.waitFor_waitFor, List.map_append]

/-! ## What deciding a result leaves in flight -/

/-- The slots that get result 0 where the batch comes to slot `n`: from there on where it ends, else none (R153). -/
def Batch.unprocessed (b : Batch) (n : Nat) : List Nat := if b.endsAt n then (List.range 8).drop n else []

theorem Batch.endsAt_iff (b : Batch) (n : Nat) :
    b.endsAt n = true ↔ 8 ≤ n ∨ byteAt (b.slots.getD n []) 0 = 0#8 := by
  simp [Batch.endsAt]

/-- A batch that waits for something is not acknowledged (R154). -/
theorem State.settleBatch_waiting {s : State} {k : Aud} {b : Batch} (hb : (s.aud k).unit.batch = some b)
    (hw : b.outstanding ≠ []) : s.settleBatch k = s := by
  unfold State.settleBatch
  rw [hb]
  exact if_neg fun h => hw h.2

/-- R153: a batch that waits for something comes to slot `n`; where it ends there, result 0 is written into that slot
and every one after it. -/
theorem State.comeToSlot_resultsMade {s : State} {k : Aud} {x : Binding} {b : Batch}
    (hx : s.binding k .showRecord = some x) (hlim : 511 ≤ x.limit.toNat) (hb : (s.aud k).unit.batch = some b)
    (hw : b.outstanding ≠ []) (n : Nat) :
    ∃ made, State.ResultsMade s (s.comeToSlot k n) x
        ((b.unprocessed n).map fun i => (resultOffset i, [0])) made ∧
      ((s.comeToSlot k n).aud k).unit.batch = some { b with
        next := n
        phase := if b.endsAt n then .ending else .taking
        outstanding := b.outstanding ++ made.map Access.tag } := by
  unfold State.comeToSlot Batch.unprocessed
  rw [hb]
  by_cases hend : b.endsAt n = true
  · simp only [hend, if_true]
    set s1 := s.modUnit k fun u => { u with batch := some { b with next := n, phase := .ending } } with hs1
    obtain ⟨made, hmade, hunit⟩ := State.batchWrites_resultsMade (k := k) [0] resultOffset ((List.range 8).drop n)
      (fun i hi => by
        have := List.mem_range.mp (List.mem_of_mem_drop hi)
        simp only [List.length_singleton]; unfold resultOffset; omega) s1 hx
    have hbatch : ((s1.writeUnprocessed k n).aud k).unit.batch = some { b with
        next := n, phase := .ending, outstanding := b.outstanding ++ made.map Access.tag } := by
      unfold State.writeUnprocessed
      rw [hunit, hs1, State.modUnit_def, State.aud_modAud_same]
      rfl
    rw [State.settleBatch_waiting hbatch (List.append_ne_nil_of_left_ne_nil hw _)]
    have h1 : State.ResultsMade s s1 x [] [] := (State.ResultsMade.none s x).then_modAud k _
    exact ⟨made, h1.trans hmade, hbatch⟩
  · simp only [hend, if_false, Bool.false_eq_true]
    refine ⟨[], (State.ResultsMade.none s x).then_modAud k _, ?_⟩
    rw [State.modUnit_def, State.aud_modAud_same]
    simp

/-- R153: deciding a result issues the write of that result and, where the batch ends, those of result 0, and the batch
waits for exactly these. -/
theorem State.decide_resultsMade {s : State} {k : Aud} {x : Binding} {b : Batch} (conditions : Byte)
    (reply : List Byte) (hx : s.binding k .showRecord = some x) (hlim : 511 ≤ x.limit.toNat)
    (hb : (s.aud k).unit.batch = some b) (hn : b.next < 8) :
    ∃ made, State.ResultsMade s (s.decide k conditions reply) x
        ((resultOffset b.next, conditions :: padTo 16 reply)
          :: (b.unprocessed (b.next + 1)).map fun i => (resultOffset i, [0])) made ∧
      ((s.decide k conditions reply).aud k).unit.batch = some { b with
        next := b.next + 1
        phase := if b.endsAt (b.next + 1) then .ending else .taking
        outstanding := b.outstanding ++ made.map Access.tag } := by
  have hfit : resultOffset b.next + (conditions :: padTo 16 reply).length - 1 ≤ x.limit.toNat := by
    simp only [List.length_cons, padTo, List.length_take, List.length_append, List.length_replicate, resultOffset]
    omega
  obtain ⟨result, hresult, hunit⟩ := State.batchWrite_resultsMade hx hfit
  have hb1 : ((s.batchWrite k (resultOffset b.next) (conditions :: padTo 16 reply)).aud k).unit.batch
      = some { b with outstanding := b.outstanding ++ result.map Access.tag } := by
    rw [hunit]; simp [DirectiveUnit.waitFor, hb]
  have hwaits : result ≠ [] := fun h => by simpa [h] using hresult.writes
  obtain ⟨zeros, hzeros, hbatch⟩ := State.comeToSlot_resultsMade
    ((s.batchWrite_binding k _ _ k .showRecord).trans hx) hlim hb1 (by simp [hwaits]) (b.next + 1)
  have hdecide : s.decide k conditions reply
      = (s.batchWrite k (resultOffset b.next) (conditions :: padTo 16 reply)).comeToSlot k (b.next + 1) := by
    unfold State.decide; rw [hb]
  rw [hdecide]
  refine ⟨result ++ zeros, hresult.trans hzeros, hbatch.trans ?_⟩
  simp only [List.map_append, ← List.append_assoc]
  rfl

/-- R153, R154: once the result of its slot is decided, the batch goes on. -/
theorem State.decide_goesOn {s : State} {k : Aud} {x : Binding} {b : Batch} (conditions : Byte)
    (reply : List Byte) (hx : s.binding k .showRecord = some x) (hlim : 511 ≤ x.limit.toNat)
    (hb : (s.aud k).unit.batch = some b) (hn : b.next < 8) : s.GoesOn (s.decide k conditions reply) k b := by
  obtain ⟨made, hmade, hbatch⟩ := State.decide_resultsMade conditions reply hx hlim hb hn
  have hdrop : (s.decide k conditions reply).inFlight.drop s.inFlight.length = made := by
    rw [hmade.inFlight, List.drop_left]
  have hall : (made.filter fun a => [Purpose.resultWrite, .flagWrite, .bindingWrite].contains a.purpose) = made :=
    List.filter_eq_self.mpr fun a ha => by rw [(hmade.each a ha).purpose]; rfl
  have hzeros : (made.filter fun a => a.purpose == .resultWrite && a.length == 1).map Access.offset
      = (b.unprocessed (b.next + 1)).map resultOffset := by
    rw [hmade.oneByte]
    simp [padTo, List.filter_map, Function.comp_def]
  unfold State.GoesOn
  simp only [hdrop, hall, hzeros, ← b.endsAt_iff]
  refine ⟨hbatch, .refl _, fun hends n hnext h8 => ?_⟩
  refine hmade.issued hx (List.mem_cons_of_mem _ (List.mem_map.mpr ⟨n, ?_, rfl⟩))
  rw [Batch.unprocessed, if_pos hends, List.mem_drop_iff_getElem]
  exact ⟨n - (b.next + 1), by simp; omega, by simp; omega⟩

end Sys2Proof.Machine
end

section
/-! SUPPORT. What a directive that is decided at once leaves (R153, R155, R168), and the settings and MARK
(R161 to R164). -/

namespace Sys2Proof.Machine

/-! ## A directive decided at once -/

/-- A directive that stands takes effect. -/
theorem State.Standing.takes {s : State} {k : Aud} {c : Instr} {b : Batch} (h : s.Standing k c b)
    (f : State → State) : s.taking k c f = f s := by
  have hready : s.ready k = some c := by
    unfold State.ready
    rw [if_pos ⟨h.running, h.lit⟩, h.batch]
    simp only [h.taking, if_true, h.slot]
  exact if_pos hready

/-- From `s` to `t` a directive is decided with `conditions` and `reply`: the batch `b` of auditorium `k` goes on, the
blocks of `k` are those of `a` but for that, and nothing else changes but the accesses issued. -/
structure State.Decided (s t : State) (k : Aud) (b : Batch) (conditions : Byte) (reply : List Byte)
    (a : Auditorium) : Prop where
  only : State.OnlyAud k s t
  goesOn : s.GoesOn t k b
  issued : s.ResultIssued t k b.next conditions reply
  aud : t.aud k = { a with unit := { a.unit with batch := (t.aud k).unit.batch } }

/-- A directive that stands changes its auditorium by `f`, which leaves the batch, and then decides its result. -/
theorem State.Standing.decided {s : State} {k : Aud} {c : Instr} {b : Batch} (h : s.Standing k c b)
    (f : Auditorium → Auditorium) (hf : (f (s.aud k)).unit.batch = (s.aud k).unit.batch) (conditions : Byte)
    (reply : List Byte) :
    State.Decided s ((s.modAud k f).decide k conditions reply) k b conditions (padTo 16 reply) (f (s.aud k)) := by
  obtain ⟨x, hx, hlim⟩ := h.record
  have hb : ((s.modAud k f).aud k).unit.batch = some b := by rw [State.aud_modAud_same, hf, h.batch]
  have hx1 : (s.modAud k f).binding k .showRecord = some x := hx
  have hgoes := State.decide_goesOn conditions reply hx1 hlim hb h.within
  obtain ⟨honly, hissued, more, haud⟩ :=
    State.decide_spec conditions reply hx1 hlim hb (Nat.le_of_lt_succ h.within)
  refine ⟨(s.onlyAud_modAud k f).trans honly, hgoes, hissued, ?_⟩
  rw [haud, State.aud_modAud_same]

/-- TAG_RESET as the statements write it (R168). -/
theorem State.tagResetBit_tagHeld (s : State) (k : Aud) :
    tagResetBit (s.tagHeld k) = if (s.aud k).unit.tag = .empty then 0#8 else 0x40#8 := by
  by_cases h : (s.aud k).unit.tag = .empty <;> simp [State.tagHeld, tagResetBit, cTagReset, h]

/-- A directive that stands changes its auditorium by `f`, which leaves its batch and tag state, and is then settled:
TAKEN with `condition`, TAG_RESET where the tag state was held, and the tag state EMPTY (R155, R168). -/
theorem State.Standing.settled {s : State} {k : Aud} {c : Instr} {b : Batch} (h : s.Standing k c b)
    (f : Auditorium → Auditorium) (hbatch : (f (s.aud k)).unit.batch = (s.aud k).unit.batch)
    (htag : (f (s.aud k)).unit.tag = (s.aud k).unit.tag) (condition : Byte) :
    State.Decided s ((s.modAud k f).settle k condition) k b
      (cTaken ||| condition ||| (if (s.aud k).unit.tag = .empty then 0#8 else 0x40#8)) (List.replicate 16 0)
      { f (s.aud k) with unit := { (f (s.aud k)).unit with tag := .empty } } := by
  have hreset : tagResetBit ((s.modAud k f).tagHeld k) = if (s.aud k).unit.tag = .empty then 0#8 else 0x40#8 := by
    rw [State.tagResetBit_tagHeld, State.aud_modAud_same, htag]
  unfold State.settle State.emptyTag
  rw [hreset, State.modUnit_def, State.modAud_modAud]
  exact h.decided (fun a => { f a with unit := { (f a).unit with tag := .empty } }) hbatch _ zeroReply

/-- A refused directive changes nothing but the tag state (R155, R168). -/
theorem State.Standing.refused {s : State} {k : Aud} {c : Instr} {b : Batch} (h : s.Standing k c b)
    (condition : Byte) :
    State.Decided s (s.settle k condition) k b
      (cTaken ||| condition ||| (if (s.aud k).unit.tag = .empty then 0#8 else 0x40#8)) (List.replicate 16 0)
      { s.aud k with unit := { (s.aud k).unit with tag := .empty } } := by
  have hsettled := h.settled (fun a => a) rfl rfl condition
  rwa [State.modAud_id] at hsettled

/-! ## SET_CHANNELS (R161) -/

/-- R161: the five range checks pass together, or nothing is set. -/
theorem channelsOf_eq (captions narration copies refresh check address : Byte) :
    channelsOf captions narration copies refresh check address
      = if captions.toNat ≤ 15 ∧ narration.toNat ≤ 3 ∧ copies.toNat ≤ 3 ∧ check.toNat ≤ 1 ∧ address.toNat ≤ 63
        then some
          { captions := captions.setWidth 4, narration := narration.setWidth 2, copies := copies.toNat
            refresh := max 5 (min 250 refresh.toNat), checkOn := check == 1, address := address.setWidth 6 }
        else none := by
  simp only [channelsOf, ← Nat.not_le, ite_not, ite_and]

theorem ChannelSettings.restates_eq_false_iff (new old : ChannelSettings) :
    new.restates old = false ↔ new.captions.toNat ≠ old.captions.toNat ∨ new.narration.toNat ≠ old.narration.toNat
      ∨ new.address.toNat ≠ old.address.toNat := by
  simp only [ChannelSettings.restates, Bool.and_eq_false_iff, beq_eq_false_iff_ne, ne_eq, BitVec.toNat_inj, or_assoc]

/-- A field that passed its range check keeps its value in its narrower register. -/
theorem setWidth_toNat_of_le {w n m : Nat} {v : BitVec w} (h : v.toNat ≤ m) (hm : m < 2 ^ n) :
    (v.setWidth n).toNat = v.toNat := by
  rw [BitVec.toNat_setWidth, Nat.mod_eq_of_lt (h.trans_lt hm)]

/-- R161: the settings of a SET_CHANNELS whose values are in range are those values, the refresh interval clamped. -/
theorem channelsOf_inRange {captions narration copies refresh check address : Byte}
    (h : captions.toNat ≤ 15 ∧ narration.toNat ≤ 3 ∧ copies.toNat ≤ 3 ∧ check.toNat ≤ 1 ∧ address.toNat ≤ 63) :
    ∃ c, channelsOf captions narration copies refresh check address = some c
      ∧ c.captions.toNat = captions.toNat ∧ c.narration.toNat = narration.toNat ∧ c.copies = copies.toNat
      ∧ c.refresh = max 5 (min 250 refresh.toNat) ∧ c.checkOn = decide (check = 1#8)
      ∧ c.address.toNat = address.toNat := by
  have ⟨hcaptions, hnarration, _, _, haddress⟩ := h
  exact ⟨_, (channelsOf_eq ..).trans (if_pos h), setWidth_toNat_of_le hcaptions (by decide),
    setWidth_toNat_of_le hnarration (by decide), rfl, rfl, rfl, setWidth_toNat_of_le haddress (by decide)⟩

/-- R161: in RUNNING and CLOSING a SET_CHANNELS that changes a mask or the address is refused. -/
theorem State.Standing.doSetChannels_refused {s : State} {k : Aud} {i : Instr} {b : Batch} (h : s.Standing k i b)
    {c : ChannelSettings} (hfixed : (s.aud k).unit.showState = .running ∨ (s.aud k).unit.showState = .closing)
    (hchanged : c.restates (s.aud k).unit.channels = false) :
    State.Decided s (s.doSetChannels k (some c)) k b
      (0x03#8 ||| (if (s.aud k).unit.tag = .empty then 0#8 else 0x40#8)) (List.replicate 16 0)
      { s.aud k with unit := { (s.aud k).unit with tag := .empty } } := by
  have hsettle : s.doSetChannels k (some c) = s.settle k cIllegal := if_pos ⟨hfixed, by rw [hchanged]; rfl⟩
  rw [hsettle]
  exact h.refused cIllegal

/-- R161: any other SET_CHANNELS whose values are in range puts the settings in place. -/
theorem State.Standing.doSetChannels_taken {s : State} {k : Aud} {i : Instr} {b : Batch} (h : s.Standing k i b)
    {c : ChannelSettings} (hfree : ¬(((s.aud k).unit.showState = .running ∨ (s.aud k).unit.showState = .closing)
      ∧ c.restates (s.aud k).unit.channels = false)) :
    State.Decided s (s.doSetChannels k (some c)) k b
      (0x01#8 ||| (if (s.aud k).unit.tag = .empty then 0#8 else 0x40#8)) (List.replicate 16 0)
      { s.aud k with unit := { (s.aud k).unit with tag := .empty, channels := c } } := by
  have hsettle : s.doSetChannels k (some c)
      = (s.modAud k fun a => { a with unit := { a.unit with channels := c } }).settle k 0 :=
    if_neg fun ⟨hfixed, hchanged⟩ => hfree ⟨hfixed, by simpa using hchanged⟩
  rw [hsettle]
  exact h.settled (fun a => { a with unit := { a.unit with channels := c } }) rfl rfl 0

/-- Settles O45: the three outcomes are those of the range checks and of the check against the show state. -/
theorem setChannelsReplacesTheSettings : Obligations.SetChannelsReplacesTheSettings := by
  unfold Obligations.SetChannelsReplacesTheSettings
  intro k captions narration copies refresh check address b s h reset inRange old fixed changed
  refine ⟨_, congrArg Host.Outcome.next (h.takes _), ?_⟩
  by_cases hr : inRange
  · obtain ⟨c, hc, hcaptions, hnarration, hcopies, hrefresh, hcheck, haddress⟩ :=
      channelsOf_inRange (refresh := refresh) hr
    have hchanged : c.restates old = false ↔ changed := by
      rw [ChannelSettings.restates_eq_false_iff, hcaptions, hnarration, haddress]
    rw [hc]
    by_cases hf : fixed ∧ changed
    · have d := h.doSetChannels_refused hf.1 (hchanged.mpr hf.2)
      exact ⟨d.only, d.goesOn, by rw [d.aud], fun hn => absurd hr hn, fun _ _ _ => ⟨by rw [d.aud], d.issued⟩,
        fun _ hn => absurd hf hn⟩
    · have d := h.doSetChannels_taken fun hn => hf ⟨hn.1, hchanged.mp hn.2⟩
      have hchannels : ((s.doSetChannels k (some c)).aud k).unit.channels = c := by rw [d.aud]
      refine ⟨d.only, d.goesOn, by rw [d.aud], fun hn => absurd hr hn, fun _ hx hy => absurd ⟨hx, hy⟩ hf,
        fun _ _ => ?_⟩
      rw [hchannels]
      exact ⟨hcaptions, hnarration, hcopies, hrefresh, hcheck, haddress, d.issued⟩
  · rw [channelsOf_eq, if_neg hr]
    have d : State.Decided s (s.doSetChannels k none) _ _ _ _ _ := h.refused cParameter
    exact ⟨d.only, d.goesOn, by rw [d.aud], fun _ => ⟨by rw [d.aud], d.issued⟩, fun hy => absurd hy hr,
      fun hy => absurd hy hr⟩

/-! ## SET_LOOP (R162) -/

/-- R162: both range checks pass, or nothing is set. -/
theorem loopOf_eq (c0 c1 c2 : Half) (pm : Byte) (epsMax : Half) (holdover : Byte) (trim : Half) :
    loopOf c0 c1 c2 pm epsMax holdover trim
      = if 15 < pm.toNat ∨ trim.toInt < -4800 ∨ 4800 < trim.toInt then none
        else some
          { c0 := c0.toInt, c1 := c1.toInt, c2 := c2.toInt, pm := pm.toNat, epsMax := min epsMax.toNat 8388
            holdover := max holdover.toNat 11, trim := trim.toInt } := by
  simp only [loopOf, ite_or]

/-- R162, R34: a SET_LOOP that passes replaces the settings in the clock and clamps its rate offset. -/
theorem State.Standing.doSetLoop {s : State} {k : Aud} {c : Instr} {b : Batch} (h : s.Standing k c b)
    (l : LoopSettings) :
    State.Decided s (s.doSetLoop k (some l)) k b
      (0x01#8 ||| (if (s.aud k).unit.tag = .empty then 0#8 else 0x40#8)) (List.replicate 16 0)
      { s.aud k with clock := (s.aud k).clock.setLoop l, unit := { (s.aud k).unit with tag := .empty } } :=
  h.settled (fun a => { a with clock := a.clock.setLoop l }) rfl rfl 0

/-- Settles O46: a SET_LOOP is refused by its range checks or replaces the settings. -/
theorem setLoopReplacesTheLoopSettings : Obligations.SetLoopReplacesTheLoopSettings := by
  unfold Obligations.SetLoopReplacesTheLoopSettings
  intro k c0 c1 c2 epsMax trim pm holdover b s h reset bad limit
  refine ⟨_, congrArg Host.Outcome.next (h.takes _), ?_⟩
  rw [loopOf_eq]
  by_cases hbad : bad
  · rw [if_pos hbad]
    have d : State.Decided s (s.doSetLoop k none) _ _ _ _ _ := h.refused cParameter
    exact ⟨d.only, d.goesOn, by rw [d.aud], fun _ => ⟨by rw [d.aud], d.issued⟩, fun hn => absurd hbad hn⟩
  · rw [if_neg hbad]
    have d := h.doSetLoop ⟨c0.toInt, c1.toInt, c2.toInt, pm.toNat, limit, max holdover.toNat 11, trim.toInt⟩
    exact ⟨d.only, d.goesOn, by rw [d.aud], fun hn => absurd hn hbad, fun _ => ⟨by rw [d.aud]; rfl, d.issued⟩⟩

/-! ## SET_MIX (R163) -/

theorem clampMix_eq (gn gb gd attack release : Half) :
    clampMix gn gb gd attack release
      = { gn := gn, gb := gb, gd := if gb.toNat < gd.toNat then gb else gd
          attack := if attack.toNat = 0 then 1 else attack
          release := if release.toNat = 0 then 1 else release } := by
  have hzero (v : Half) : v = 0 ↔ v.toNat = 0 := by rw [← BitVec.toNat_inj]; rfl
  simp only [clampMix, hzero, gt_iff_lt]

/-- R163: SET_MIX replaces the settings in the Mixer. -/
theorem State.Standing.doSetMix {s : State} {k : Aud} {c : Instr} {b : Batch} (h : s.Standing k c b)
    (m : MixSettings) :
    State.Decided s (s.doSetMix k m) k b
      (0x01#8 ||| (if (s.aud k).unit.tag = .empty then 0#8 else 0x40#8)) (List.replicate 16 0)
      { s.aud k with
        mixer := { (s.aud k).mixer with settings := m }, unit := { (s.aud k).unit with tag := .empty } } :=
  h.settled (fun a => { a with mixer := { a.mixer with settings := m } }) rfl rfl 0

/-- Settles O47: no SET_MIX is refused, and the settings are those after the clamps of R91. -/
theorem setMixReplacesTheMixSettings : Obligations.SetMixReplacesTheMixSettings := by
  unfold Obligations.SetMixReplacesTheMixSettings
  intro k gn gb gd attack release b s h reset
  refine ⟨_, congrArg Host.Outcome.next (h.takes _), ?_⟩
  have d := h.doSetMix (clampMix gn gb gd attack release)
  exact ⟨d.only, d.issued, by rw [d.aud, clampMix_eq], d.goesOn, by rw [d.aud]⟩

/-! ## MARK (R164) -/

/-- R164: the reply of a MARK fills its 16 bytes. -/
theorem padTo_markReply (a : Auditorium) (houseTime : Word) :
    padTo 16 (markReply a houseTime) = markReply a houseTime := rfl

/-- Settles O48: MARK decides its result over blocks it leaves as they are. -/
theorem markRepliesTheMoment : Obligations.MarkRepliesTheMoment := by
  unfold Obligations.MarkRepliesTheMoment
  intro k b s h clockCode seqCode
  refine ⟨_, congrArg Host.Outcome.next (h.takes _), ?_⟩
  have d := h.decided (fun a => a) rfl cTaken (markReply (s.aud k) s.houseTime)
  rw [State.modAud_id, padTo_markReply] at d
  have hclock : clockCode = (s.aud k).clock.state.code := by
    cases hc : (s.aud k).clock.state <;> simp only [clockCode, hc] <;> rfl
  have hseq : seqCode = (s.aud k).seq.state.code := by
    cases hq : (s.aud k).seq.state <;> simp only [seqCode, hq] <;> rfl
  rw [hclock, hseq]
  exact ⟨d.only, d.issued, d.goesOn, d.aud⟩

end Sys2Proof.Machine
end

section
/-! SUPPORT. What a tag directive that is decided at once leaves (R168): TAG_FIRST, TAG_LAST and UNTAG (R169 to
R171). -/

namespace Sys2Proof.Machine

/-! ## A tag directive decided at once -/

/-- From `s` to `t` a tag directive with the result `r` is decided: the batch `b` of auditorium `k` goes on, the tag
state is kept by a refusal and set otherwise, and nothing else changes but the accesses issued. -/
structure State.TagDecided (s t : State) (k : Aud) (b : Batch) (r : Except Byte TagState) : Prop where
  only : State.OnlyAud k s t
  goesOn : s.GoesOn t k b
  aud : t.aud k = { s.aud k with unit := { (s.aud k).unit with
    tag := (t.aud k).unit.tag, batch := (t.aud k).unit.batch } }
  refused : ∀ condition, r = .error condition →
    (t.aud k).unit.tag = (s.aud k).unit.tag ∧ s.ResultIssued t k b.next (cTaken ||| condition) (List.replicate 16 0)
  taken : ∀ tag, r = .ok tag →
    (t.aud k).unit.tag = tag ∧ s.ResultIssued t k b.next 0x01#8 (List.replicate 16 0)

/-- A tag directive that stands is decided by its result, without TAG_RESET (R168). -/
theorem State.Standing.settleTagResult {s : State} {k : Aud} {c : Instr} {b : Batch} (h : s.Standing k c b)
    (r : Except Byte TagState) : State.TagDecided s (s.settleTagResult k r) k b r := by
  cases r with
  | error condition =>
    have d := h.decided (fun a => a) rfl (cTaken ||| condition) zeroReply
    rw [State.modAud_id] at d
    change State.Decided s (s.settleTagResult k (.error condition)) _ _ _ _ _ at d
    refine ⟨d.only, d.goesOn, by rw [d.aud], ?_, fun _ hr => (nomatch hr)⟩
    rintro _ ⟨rfl⟩
    exact ⟨by rw [d.aud], d.issued⟩
  | ok tag =>
    have d : State.Decided s (s.settleTagResult k (.ok tag)) _ _ _ _ _ :=
      h.decided (fun a => { a with unit := { a.unit with tag := tag } }) rfl (cTaken ||| 0) zeroReply
    refine ⟨d.only, d.goesOn, by rw [d.aud], fun _ hr => (nomatch hr), ?_⟩
    rintro _ ⟨rfl⟩
    exact ⟨by rw [d.aud], d.issued⟩

/-! ## TAG_FIRST (R169) -/

section TagFirst
variable {held : Bool} {listCount index : Nat}

theorem tagFirstResult_unheld (h : ¬held = true) : tagFirstResult held listCount index = .error cIllegal := by
  simp [tagFirstResult, h]

theorem tagFirstResult_past_list (h : held = true) (hindex : listCount ≤ index) :
    tagFirstResult held listCount index = .error cParameter := by
  simp [tagFirstResult, h, hindex]

theorem tagFirstResult_listed (h : held = true) (hindex : index < listCount) :
    tagFirstResult held listCount index = .ok (.firstSet index) := by
  simp [tagFirstResult, h, hindex]

end TagFirst

/-- Settles O49: a TAG_FIRST is refused without CUES or past the list, and begins a range otherwise. -/
theorem tagFirstBeginsARange : Obligations.TagFirstBeginsARange := by
  unfold Obligations.TagFirstBeginsARange
  intro k index b s h held
  refine ⟨_, congrArg Host.Outcome.next (h.takes _), ?_⟩
  have d := h.settleTagResult (tagFirstResult (s.binding k .cues).isSome (s.aud k).seq.listCount index.toNat)
  exact ⟨d.only,
    fun hunheld => d.refused _ (tagFirstResult_unheld hunheld),
    fun hheld hpast => d.refused _ (tagFirstResult_past_list hheld hpast),
    fun hheld hlisted => d.taken _ (tagFirstResult_listed hheld hlisted),
    d.goesOn, d.aud⟩

/-! ## TAG_LAST (R170) -/

section TagLast
variable {held : Bool} {listCount index first : Nat} {t : TagState}

theorem tagLastResult_unheld (h : ¬held = true) : tagLastResult held listCount index t = .error cIllegal := by
  simp [tagLastResult, h]

theorem tagLastResult_out_of_sequence (h : held = true) (ht : ∀ first, t ≠ .firstSet first) :
    tagLastResult held listCount index t = .error cSequence := by
  cases t with
  | empty => simp [tagLastResult, h]
  | firstSet first => exact absurd rfl (ht first)
  | rangeSet _ _ _ => simp [tagLastResult, h]

theorem tagLastResult_firstSet (h : held = true) :
    tagLastResult held listCount index (.firstSet first)
      = if index < first ∨ listCount ≤ index ∨ 1024 ≤ index - first then .error cParameter
        else .ok (.rangeSet first index []) := by
  simp [tagLastResult, h]

end TagLast

/-- Settles O50: in FIRST_SET the three range checks together refuse a TAG_LAST, or it sets the range. -/
theorem tagLastSetsTheRange : Obligations.TagLastSetsTheRange := by
  unfold Obligations.TagLastSetsTheRange
  intro k index b s h held tag
  refine ⟨_, congrArg Host.Outcome.next (h.takes _), ?_⟩
  have d := h.settleTagResult (tagLastResult (s.binding k .cues).isSome (s.aud k).seq.listCount index.toNat tag)
  refine ⟨d.only,
    fun hunheld => d.refused _ (tagLastResult_unheld hunheld),
    fun hheld hstate => d.refused _ (tagLastResult_out_of_sequence hheld hstate),
    fun first hheld hfirst hout => d.refused cParameter ?_,
    fun first hheld hfirst hlow hlisted hnear => d.taken _ ?_,
    d.goesOn, d.aud⟩
  · rw [hfirst, tagLastResult_firstSet hheld, if_pos hout]
  · rw [hfirst, tagLastResult_firstSet hheld, if_neg (by omega)]

/-! ## UNTAG (R171) -/

section Untag
variable {held : Bool} {index first last : Nat} {untags : List Nat} {t : TagState}

theorem untagResult_unheld (h : ¬held = true) : untagResult held index t = .error cIllegal := by
  simp [untagResult, h]

theorem untagResult_out_of_sequence (h : held = true) (ht : ∀ first last untags, t ≠ .rangeSet first last untags) :
    untagResult held index t = .error cSequence := by
  cases t with
  | empty => simp [untagResult, h]
  | firstSet _ => simp [untagResult, h]
  | rangeSet first last untags => exact absurd rfl (ht first last untags)

/-- R171: in RANGE_SET a listed index is TAKEN at any length of the list, and only a new one counts toward the
eight. -/
theorem untagResult_rangeSet (h : held = true) :
    untagResult held index (.rangeSet first last untags)
      = if index < first ∨ last < index ∨ (index ∉ untags ∧ 8 ≤ untags.length) then .error cParameter
        else .ok (.rangeSet first last (if index ∈ untags then untags else untags ++ [index])) := by
  simp only [untagResult, h, Bool.not_true, Bool.false_eq_true, if_false, ← or_assoc]
  by_cases hrange : index < first ∨ last < index
  · simp [hrange]
  · by_cases hlisted : index ∈ untags <;> simp [hrange, hlisted]

end Untag

/-- Settles O51: in RANGE_SET an UNTAG is refused out of the range or as a ninth index, or leaves its index out. -/
theorem untagLeavesOutUpToEight : Obligations.UntagLeavesOutUpToEight := by
  unfold Obligations.UntagLeavesOutUpToEight
  intro k index b s h held tag
  refine ⟨_, congrArg Host.Outcome.next (h.takes _), ?_⟩
  have d := h.settleTagResult (untagResult (s.binding k .cues).isSome index.toNat tag)
  refine ⟨d.only,
    fun hunheld => d.refused _ (untagResult_unheld hunheld),
    fun hheld hstate => d.refused _ (untagResult_out_of_sequence hheld hstate),
    fun first last untags hheld hrange hout => d.refused cParameter ?_,
    fun first last untags hheld hrange hlow hhigh hroom => d.taken _ ?_,
    d.goesOn, d.aud⟩
  · rw [hrange, untagResult_rangeSet hheld, if_pos hout]
  · rw [hrange, untagResult_rangeSet hheld, if_neg]
    rintro (hbelow | habove | ⟨hnew, hfull⟩)
    · omega
    · omega
    · exact hroom.elim hnew (by omega)

end Sys2Proof.Machine
end

section
/-! SUPPORT. The state after reset keeps every promise, and two promises that a step can break from a state that no
run from reset reaches: a read that is no longer waited for. -/

namespace Sys2Proof.Machine

/-! ## The state after reset -/

theorem Receiver.sound_initial : Receiver.initial.Sound :=
  ⟨fun _ => ⟨rfl, rfl, rfl⟩, fun h => nomatch h⟩

theorem LoopSettings.within_initial : LoopSettings.initial.Within := by
  constructor <;> decide

theorem Clock.within_initial : Clock.initial.Within := by
  refine ⟨LoopSettings.within_initial, ?_, ?_, ?_, ?_, ?_, ?_, ?_, ?_, ?_, ?_⟩ <;> decide

theorem Link.sound_initial (k : Aud) : (Link.initial k).Sound := by
  constructor <;> simp [Link.initial]

theorem Link.fits_initial (k : Aud) : (Link.initial k).Fits k :=
  ⟨fun _ h => (nomatch h), fun _ h => (nomatch h)⟩

@[simp] theorem noActive_get (c : Channel) : noActive[c] = [] := by
  simp [noActive]

theorem Sequencer.bounded_initial : Sequencer.initial.Bounded where
  listCount := by decide
  window := by decide
  active := fun c => by simp [Sequencer.initial]
  seeking := fun _ h => nomatch h
  dark := fun _ h => nomatch h
  candidates := fun _ h => nomatch h
  unlooked := fun _ h => nomatch h
  distinct := fun _ _ h => nomatch h

theorem Ring.bounded_initial : Ring.initial.Bounded :=
  ⟨Nat.zero_le _, fun _ h => nomatch h⟩

theorem Mixer.bounded_initial : Mixer.initial.Bounded where
  ringA := Ring.bounded_initial
  ringB := Ring.bounded_initial
  bed := Ring.bounded_initial
  gainA := by decide
  gainB := by decide
  ducked := by decide
  attack := by decide
  release := by decide

theorem Builder.bounded_initial : Builder.initial.Bounded where
  queue := by decide
  records := by decide
  copies := fun _ h => nomatch h
  countdown := fun _ h => nomatch h
  closing := by decide
  starts := List.nodup_nil

theorem ChannelSettings.within_initial (k : Aud) : (ChannelSettings.initial k).Within := by
  constructor <;> simp [ChannelSettings.initial]

/-- A Sequencer at rest in a show without a batch follows its clock. -/
theorem Auditorium.follows_of_rest {a : Auditorium} (hclock : a.clock.state = .idle) (hseq : a.seq.state = .idle)
    (hcursor : a.seq.cursor = 0) (hwindow : a.seq.window = []) (hseek : a.seq.seek = none)
    (hbatch : a.unit.batch = none) : a.Follows where
  window := by simp [hwindow, hcursor]
  cursor := by simp [hwindow, hcursor]
  seeking := by simp [hseek]
  scan := by simp [hseek]
  rest := fun _ => ⟨hclock, hseq, hcursor, hwindow, hseek⟩
  counting := by simp [hbatch]
  claiming := by simp [hbatch]

theorem Auditorium.follows_initial (k : Aud) : (Auditorium.initial k).Follows :=
  follows_of_rest rfl rfl rfl rfl rfl rfl

theorem Auditorium.carries_initial (k : Aud) : (Auditorium.initial k).Carries where
  distinct := fun c => by simp [Auditorium.initial, Sequencer.initial]
  below := fun c => by simp [Auditorium.initial, Sequencer.initial]
  walking := fun _ c => by simp [Auditorium.initial, Sequencer.initial]
  records := List.nodup_nil
  onScreen := fun _ h => nomatch h
  rest := fun _ => ⟨rfl, fun c => by simp [Auditorium.initial, Sequencer.initial]⟩
  looking := fun _ _ h => nomatch h
  closing := fun h => nomatch h

theorem State.partSound_reset : State.reset.PartSound where
  dark := fun _ k => by rw [State.aud_reset]; rfl
  unbound := fun _ => rfl
  idle := fun _ k => by rw [State.aud_reset]; rfl
  quiet := fun _ => rfl
  scanBindings := fun h => nomatch h
  scanReads := fun h => nomatch h
  owned := fun h => nomatch h

theorem State.mapSound_reset : State.reset.MapSound where
  exclusive := List.Pairwise.nil
  showOwn := fun _ h => nomatch h
  otherHigh := fun _ h => nomatch h
  darkFree := fun h => nomatch h
  scanApart := List.Pairwise.nil
  scanFree := fun _ h => nomatch h
  checkOwn := fun _ h => nomatch h
  scanUnowned := fun _ h => nomatch h
  claims := fun k b role selector held h => by rw [State.aud_reset] at h; exact nomatch h

/-- Settles O60: every block of the state after reset is in its power-on state. -/
theorem resetHasEveryKeptProperty : Obligations.ResetHasEveryKeptProperty := by
  unfold Obligations.ResetHasEveryKeptProperty
  refine ⟨fun k => ?_, State.partSound_reset, State.mapSound_reset⟩
  rw [State.aud_reset]
  exact ⟨Receiver.sound_initial, Clock.within_initial, Link.sound_initial k, Link.fits_initial k,
    Sequencer.bounded_initial, Auditorium.follows_initial k, Mixer.bounded_initial, Builder.bounded_initial,
    ChannelSettings.within_initial k, trivial, Auditorium.carries_initial k⟩

/-! ## A late entry read of a HALTED show -/

/-- An entry read in flight under the Sequencer's present generation, which no slot of the window awaits. -/
def lateEntryRead : Access :=
  { tag := 0, issued := 0, aud := some 0, role := .cues, selector := 25, epoch := 0, offset := 32, address := 32
    length := 32, data := [], forwards := [], live := true, answer := none, purpose := .entryRead 0 0 }

/-- A RUNNING part whose auditorium 0 is HALTED with CUES bound, and whose late entry read ends in an error. -/
def haltedWithLateRead : State :=
  { State.reset.becomeHalted 0 with
    partState := .running
    bindings := [{ selector := 25, aud := 0, role := .cues, epoch := 0, base := 0, limit := 63 }]
    inFlight := [lateEntryRead]
    pending := [.entryReadComplete 0 .error] }

theorem haltedWithLateRead_aud (k : Aud) : haltedWithLateRead.aud k
    = if k = 0 then (Auditorium.initial k).becomeHalted 0 else Auditorium.initial k := by
  have h := State.reset.aud_modAud 0 k fun a => a.becomeHalted 0
  rw [State.aud_reset] at h
  exact h

theorem haltedWithLateRead_partSound : haltedWithLateRead.PartSound where
  dark := fun h => absurd rfl h
  unbound := fun h => h.elim (fun h => nomatch h) fun h => nomatch h
  idle := fun h => h.elim (fun h => nomatch h) fun h => nomatch h
  quiet := fun h => nomatch h
  scanBindings := fun h => nomatch h
  scanReads := fun h => nomatch h
  owned := fun _ a h => by obtain rfl := List.mem_singleton.mp h; exact fun h => nomatch h

theorem haltedWithLateRead_follows (k : Aud) :
    (haltedWithLateRead.aud k).seq.Bounded ∧ (haltedWithLateRead.aud k).Follows := by
  rw [haltedWithLateRead_aud]
  split
  · exact ⟨Sequencer.bounded_initial, Auditorium.follows_of_rest rfl rfl rfl rfl rfl rfl⟩
  · exact ⟨Sequencer.bounded_initial, Auditorium.follows_initial k⟩

/-- The late read faults the Sequencer of the HALTED show (R48 as the model has it, whatever the show state). -/
theorem haltedWithLateRead_faults :
    ∃ t, step haltedWithLateRead = .next t ∧ (t.aud 0).seq.state = .faulted
      ∧ (t.aud 0).unit.showState = .halted :=
  ⟨_, rfl, by decide, by decide⟩

/-- Refutes O56: from a state that keeps every promise of the premise, a failed entry read that no slot awaits leaves
the Sequencer of a HALTED show FAULTED, and not at rest. -/
theorem not_everyStepKeepsTheWindowAtTheCursor : ¬ Obligations.EveryStepKeepsTheWindowAtTheCursor := by
  unfold Obligations.EveryStepKeepsTheWindowAtTheCursor
  intro h
  obtain ⟨t, hstep, hfaulted, hhalted⟩ := haltedWithLateRead_faults
  have hfollows := (h _ t haltedWithLateRead_partSound haltedWithLateRead_follows hstep 0).2
  obtain ⟨_, hidle, _⟩ := hfollows.rest (by rw [hhalted]; decide)
  rw [hfaulted] at hidle
  exact nomatch hidle

/-! ## A claim's read that has no auditorium -/

/-- A descriptor read of selector 1 by no auditorium, which is not a read of the start-up scan. -/
def unownedClaimRead : Access :=
  { tag := 0, issued := 0, aud := none, role := .showRecord, selector := 1, epoch := 0, offset := 16, address := 16
    length := 16, data := [], forwards := [], live := true, answer := none, purpose := .claimRead }

/-- The descriptor of a show record of 512 bytes at address 0: limit 511, kind 1, present. -/
def fitShowDescriptor : List Byte := [0, 0, 0, 0, 0, 0, 0, 0, 0xFF, 1, 0, 0, 1, 1, 0, 0]

/-- The show record of auditorium 0 under selector 1. -/
def firstShowBinding : Binding :=
  { selector := 1, aud := 0, role := .showRecord, epoch := 0, base := 0, limit := 511 }

/-- A SCANNING part that has bound selector 1, with one read of that selector's descriptor still to complete. -/
def scanningWithUnownedRead : State :=
  { State.reset with
    partState := .scanning
    bindings := [firstShowBinding]
    inFlight := [unownedClaimRead]
    pending := [.descriptorReadComplete 0 (.ok fitShowDescriptor)] }

theorem scanningWithUnownedRead_aud (k : Aud) : scanningWithUnownedRead.aud k = Auditorium.initial k :=
  State.aud_reset k

theorem scanningWithUnownedRead_partSound : scanningWithUnownedRead.PartSound where
  dark := fun _ k => by rw [scanningWithUnownedRead_aud]; rfl
  unbound := fun h => h.elim (fun h => nomatch h) fun h => nomatch h
  idle := fun _ k => by rw [scanningWithUnownedRead_aud]; rfl
  quiet := fun h => nomatch h
  scanBindings := fun _ b h => by obtain rfl := List.mem_singleton.mp h; rfl
  scanReads := fun _ a h => by obtain rfl := List.mem_singleton.mp h; rfl
  owned := fun h => nomatch h

theorem scanningWithUnownedRead_mapSound : scanningWithUnownedRead.MapSound where
  exclusive := List.pairwise_singleton _ _
  showOwn := fun b h _ => by obtain rfl := List.mem_singleton.mp h; rfl
  otherHigh := fun b h hr => by obtain rfl := List.mem_singleton.mp h; exact absurd rfl hr
  darkFree := fun h => nomatch h
  scanApart := List.Pairwise.nil
  scanFree := fun a h hp => by obtain rfl := List.mem_singleton.mp h; exact nomatch hp
  checkOwn := fun a h hp => by obtain rfl := List.mem_singleton.mp h; exact nomatch hp
  scanUnowned := fun a h hp => by obtain rfl := List.mem_singleton.mp h; exact nomatch hp
  claims := fun k b role selector held h => by rw [scanningWithUnownedRead_aud] at h; exact nomatch h

/-- The read binds selector 1 a second time. -/
theorem scanningWithUnownedRead_binds_again :
    ∃ t, step scanningWithUnownedRead = .next t ∧ t.bindings.map Binding.selector = [1, 1] :=
  ⟨_, rfl, by decide⟩

/-- Refutes O59: from a state that keeps every promise of the premise, the completion of a descriptor read that belongs
to no auditorium, and is no read of the scan, binds a selector that is in the map. -/
theorem not_everyStepKeepsTheMapExclusive : ¬ Obligations.EveryStepKeepsTheMapExclusive := by
  unfold Obligations.EveryStepKeepsTheMapExclusive
  intro h
  obtain ⟨t, hstep, htwice⟩ := scanningWithUnownedRead_binds_again
  have hmap := h _ t scanningWithUnownedRead_partSound scanningWithUnownedRead_mapSound hstep
  have hnodup : (t.bindings.map Binding.selector).Nodup :=
    List.pairwise_map.mpr (hmap.exclusive.imp fun h => h.1)
  rw [htwice] at hnodup
  exact absurd hnodup (by decide)

end Sys2Proof.Machine
end

section
/-! SUPPORT. What the Builder hears of a Sequencer, and what one command can do to the blocks of an auditorium, said
once: the moves of an auditorium. -/

namespace Sys2Proof.Machine

/-! ## What the Builder hears (R52, R102 to R104, R109) -/

/-- The Builder, under the copies setting, as one message of the Sequencer leaves it. -/
def Builder.heed (copies : Nat) (b : Builder) : SeqOut → Builder
  | .start c cue reentered held => b.startRequest copies c cue reentered held
  | .remove c cue cause => b.removal copies c cue cause
  | .clear c => b.clearRequest copies c
  | .textReady cue => b.textReady cue
  | .report _ => b
  | .readEntry _ _ => b
  | .readScan _ _ => b
  | .readLookback _ _ => b
  | .readText _ _ _ _ => b

/-- The Builder as a run of messages leaves it. -/
def Builder.heedAll (copies : Nat) (b : Builder) (outs : List SeqOut) : Builder := outs.foldl (Builder.heed copies) b

@[simp] theorem Builder.heedAll_nil (n : Nat) (b : Builder) : b.heedAll n [] = b := rfl

@[simp] theorem Builder.heedAll_cons (n : Nat) (b : Builder) (o : SeqOut) (l : List SeqOut) :
    b.heedAll n (o :: l) = (b.heed n o).heedAll n l := rfl

theorem Builder.heedAll_append (n : Nat) (b : Builder) (l m : List SeqOut) :
    b.heedAll n (l ++ m) = (b.heedAll n l).heedAll n m := List.foldl_append

theorem State.askBuilder_builder (s : State) (k : Aud) (f : Builder → Builder) :
    ((s.askBuilder k f).aud k).builder
      = if s.builderTakes k then f (s.aud k).builder else (s.aud k).builder := by
  unfold State.askBuilder
  split
  · rw [State.modBuilder_def, State.aud_modAud_same]
  · rfl

theorem State.report_builder (s : State) (k : Aud) (r : Report) :
    ((s.report k r).aud k).builder = (s.aud k).builder := by rw [State.report_aud]

theorem State.access_builder (s : State) (k : Aud) (role : Role) (offset length : Nat) (data : List Byte)
    (purpose : Purpose) : ((s.access k role offset length data purpose).1.aud k).builder = (s.aud k).builder := by
  rw [State.access_aud]

/-- A message of the Sequencer reaches the Builder where that takes requests. -/
theorem State.seqSend_builder (s : State) (k : Aud) (o : SeqOut) :
    ((s.seqSend k o).aud k).builder
      = if s.builderTakes k then (s.aud k).builder.heed (s.aud k).unit.channels.copies o
        else (s.aud k).builder := by
  cases o with
  | start => exact s.askBuilder_builder k _
  | remove => exact s.askBuilder_builder k _
  | clear => exact s.askBuilder_builder k _
  | textReady => exact s.askBuilder_builder k _
  | report r => simp only [State.seqSend, Builder.heed, ite_self, State.report_builder]
  | readEntry => simp only [State.seqSend, Builder.heed, ite_self, State.access_builder]
  | readScan => simp only [State.seqSend, Builder.heed, ite_self, State.access_builder]
  | readLookback => simp only [State.seqSend, Builder.heed, ite_self, State.access_builder]
  | readText => simp only [State.seqSend, Builder.heed, ite_self, State.access_builder]

theorem State.seqSend_builderTakes (s : State) (k : Aud) (o : SeqOut) :
    (s.seqSend k o).builderTakes k = s.builderTakes k := by
  unfold State.builderTakes
  rw [(s.onlyAud_seqSend k o).partState, State.seqSend_aud]

theorem State.seqSendAll_builder (s : State) (k : Aud) (l : List SeqOut) :
    ((s.seqSendAll k l).aud k).builder
      = if s.builderTakes k then (s.aud k).builder.heedAll (s.aud k).unit.channels.copies l
        else (s.aud k).builder := by
  induction l generalizing s with
  | nil => exact (ite_self _).symm
  | cons o rest ih =>
    have hchannels : ((s.seqSend k o).aud k).unit.channels = (s.aud k).unit.channels := by rw [State.seqSend_aud]
    refine (ih (s.seqSend k o)).trans ?_
    rw [State.seqSend_builderTakes, State.seqSend_builder, hchannels]
    split <;> rfl

/-- The Builder takes requests of the Sequencer in an auditorium of these blocks (R113, R115); `live` where the part is
RUNNING. -/
def Auditorium.takes (live : Bool) (a : Auditorium) : Bool :=
  live && (a.unit.showState == .halted || a.unit.showState == .running)

/-- The part is RUNNING. -/
def State.live (s : State) : Bool := s.partState == .running

theorem State.builderTakes_eq (s : State) (k : Aud) : s.builderTakes k = (s.aud k).takes s.live := rfl

/-- The blocks with the Sequencer `q`, and the Builder told of `outs` where it takes requests. -/
def Auditorium.told (live : Bool) (a : Auditorium) (q : Sequencer) (outs : List SeqOut) : Auditorium :=
  { a with
    seq := q
    builder := if a.takes live then a.builder.heedAll a.unit.channels.copies outs else a.builder }

/-- A Sequencer's step: its own work, what the Builder hears of it, and else at most the Report Writer. -/
theorem State.seqStep_told (s : State) (k : Aud) (f : SeqEnv → Sequencer → Sequencer × List SeqOut) :
    (s.seqStep k f).aud k
      = { (s.aud k).told s.live (f (s.seqEnv k) (s.aud k).seq).1 (f (s.seqEnv k) (s.aud k).seq).2 with
          writer := ((s.seqStep k f).aud k).writer } := by
  have hbuilder := State.seqSendAll_builder (s.modSeq k fun _ => (f (s.seqEnv k) (s.aud k).seq).1) k
    (f (s.seqEnv k) (s.aud k).seq).2
  rw [State.builderTakes_eq, State.modSeq_def, State.aud_modAud_same] at hbuilder
  have h : ((s.seqStep k f).aud k).builder
      = ((s.aud k).told s.live (f (s.seqEnv k) (s.aud k).seq).1 (f (s.seqEnv k) (s.aud k).seq).2).builder := hbuilder
  rw [State.seqStep_aud, h]
  rfl

/-! ## The accesses an operation issues are its auditorium's -/

/-- Every access issued between `s` and `t` is of auditorium `k`. -/
def State.Adds (k : Aud) (s t : State) : Prop :=
  ∃ added, t.inFlight = s.inFlight ++ added ∧ ∀ a ∈ added, a.aud = some k

theorem State.Adds.none {k : Aud} {s t : State} (h : t.inFlight = s.inFlight) : State.Adds k s t :=
  ⟨[], by rw [h, List.append_nil], fun _ h => (nomatch h)⟩

theorem State.Adds.trans {k : Aud} {s t u : State} (h : State.Adds k s t) (g : State.Adds k t u) :
    State.Adds k s u := by
  obtain ⟨x, hx, hxk⟩ := h
  obtain ⟨y, hy, hyk⟩ := g
  exact ⟨x ++ y, by rw [hy, hx, List.append_assoc], fun a ha => (List.mem_append.mp ha).elim (hxk a) (hyk a)⟩

theorem State.adds_launch (s : State) (k : Aud) (role : Role) (offset length : Nat) (data : List Byte)
    (purpose : Purpose) : State.Adds k s (s.launch k role offset length data purpose).1 := by
  obtain ⟨_, h⟩ | ⟨b, hb, ⟨_, h⟩ | ⟨_, h⟩⟩ := s.launch_cases k role offset length data purpose <;> rw [h]
  · exact .none rfl
  · exact .none rfl
  · refine ⟨_, rfl, fun a ha => ?_⟩
    obtain rfl := List.mem_singleton.mp ha
    exact congrArg some (State.binding_some hb).2.1

theorem State.adds_report (s : State) (k : Aud) (r : Report) : State.Adds k s (s.report k r) := by
  obtain ⟨_, h⟩ | ⟨_, _, h⟩ | ⟨_, _, h⟩ := s.report_cases k r <;> rw [h]
  · exact .none rfl
  · exact .none rfl
  · have hlaunch := s.adds_launch k .reports (s.aud k).writer.offset 32
      (reportBytes (s.aud k).writer.writeCount s.houseTime k r) .reportWrite
    unfold State.appendReport
    simp only
    split <;> (rename_i e; rw [e] at hlaunch) <;> exact hlaunch.trans (.none rfl)

theorem State.adds_access (s : State) (k : Aud) (role : Role) (offset length : Nat) (data : List Byte)
    (purpose : Purpose) : State.Adds k s (s.access k role offset length data purpose).1 := by
  have hlaunch := s.adds_launch k role offset length data purpose
  unfold State.access
  split <;> (rename_i e; rw [e] at hlaunch)
  · exact hlaunch
  · exact hlaunch
  · exact hlaunch.trans (State.adds_report _ k _)

theorem State.adds_tableAccess (s : State) (k : Aud) (role : Role) (selector : Byte) (within length : Nat)
    (data : List Byte) (purpose : Purpose) :
    State.Adds k s (s.tableAccess (some k) role selector within length data purpose) := by
  refine ⟨_, rfl, fun a ha => ?_⟩
  obtain rfl := List.mem_singleton.mp ha
  rfl

theorem State.adds_reportAll (s : State) (k : Aud) (l : List Report) : State.Adds k s (s.reportAll k l) := by
  induction l generalizing s with
  | nil => exact .none rfl
  | cons r rest ih => exact (s.adds_report k r).trans (ih (s.report k r))

theorem State.askBuilder_inFlight (s : State) (k : Aud) (f : Builder → Builder) :
    (s.askBuilder k f).inFlight = s.inFlight := by
  unfold State.askBuilder
  split <;> rfl

theorem State.adds_seqSend (s : State) (k : Aud) (o : SeqOut) : State.Adds k s (s.seqSend k o) := by
  cases o with
  | start => exact .none (s.askBuilder_inFlight k _)
  | remove => exact .none (s.askBuilder_inFlight k _)
  | clear => exact .none (s.askBuilder_inFlight k _)
  | textReady => exact .none (s.askBuilder_inFlight k _)
  | report r => exact s.adds_report k r
  | readEntry => exact s.adds_access k _ _ _ _ _
  | readScan => exact s.adds_access k _ _ _ _ _
  | readLookback => exact s.adds_access k _ _ _ _ _
  | readText => exact s.adds_access k _ _ _ _ _

theorem State.adds_seqSendAll (s : State) (k : Aud) (l : List SeqOut) : State.Adds k s (s.seqSendAll k l) := by
  induction l generalizing s with
  | nil => exact .none rfl
  | cons o rest ih => exact (s.adds_seqSend k o).trans (ih (s.seqSend k o))

/-! ## The moves of an auditorium -/

/-- Phases of a batch in which no claim and no list header is awaited. -/
def BatchPhase.isFree : BatchPhase → Prop
  | .reading => True
  | .taking => True
  | .ending => True
  | .acking => True
  | .claiming _ _ _ _ _ _ => False
  | .counting _ _ => False

/-- The batch `b'` has taken the place of `b`: it waits for no claim and no header, or for that of `b`. -/
def Batch.Follows (b b' : Option Batch) : Prop :=
  ∀ y, b' = some y → y.phase.isFree ∨ ∃ x, b = some x ∧ y.phase = x.phase

/-- The work a Sequencer can do, with the blocks `a` around it: the new Sequencer and what it sends. -/
inductive Sequencer.Does (a : Auditorium) (env : SeqEnv) : Sequencer × List SeqOut → Prop
  | seat (target : Word) (h : a.clock.state ≠ .idle) : Does a env (a.seq.seat env target)
  | clearOrder : Does a env (a.seq.clearOrder env)
  | update (now : Word) (h : a.clock.state ≠ .idle) : Does a env (a.seq.update env now)
  | fault (index : Nat) : Does a env (a.seq.faultAt env index)
  | entry (index : Nat) (e : CueEntry) : Does a env (a.seq.entryDone env index e)
  | text (cue : CueId) (bytes : List Byte) : Does a env (a.seq.textDone env cue bytes)
  | textFails (cue : CueId) : Does a env (a.seq.textFailed env cue)
  | scan (index : Nat) (e : CueEntry) : Does a env (a.seq.scanDone index e)
  | lookback (index : Nat) (e : CueEntry) : Does a env (a.seq.lookbackDone env index e)
  | retract (c : Channel) (cue : CueId) :
    Does a env ({ a.seq with active := removeActive a.seq.active c cue }, [.remove c cue .retracted])
  | mark (i : Nat) : Does a env ({ a.seq with window := a.seq.window.map (markSlot i) }, [])

/-- A bind of CUES is under way, or the show is HALTED, in which alone one may be (R157, R158). -/
def Auditorium.BindsCues (a : Auditorium) : Prop :=
  a.unit.showState = .halted
    ∨ (∃ b tag tagReset, a.unit.batch = some b ∧ b.phase = .counting tag tagReset)
    ∨ ∃ b tag selector held tagReset, a.unit.batch = some b ∧ b.phase = .claiming tag .cues selector held true tagReset

/-- R160: the blocks at a HALT, the seek generation, the resync marks and the Report Writer aside. -/
structure Auditorium.Halts (a b : Auditorium) : Prop where
  clock : b.clock = a.clock.cleared ∨ b.clock = a.clock
  idle : b.clock.state = .idle
  seq : ∃ q : Sequencer, b.seq = q.rested ∧ q.listCount = a.seq.listCount
  mixer : b.mixer = a.mixer.halt ∨ b.mixer = a.mixer.markResync.halt
  builder : b.builder = a.builder.halt a.unit.channels.copies
  unit : b.unit = { a.unit with showState := .closing }
  receiver : b.receiver = a.receiver
  link : b.link = a.link

/-- All that can become of the blocks of auditorium `k` in one step, as moves that follow each other; `live` where the
part is RUNNING. -/
inductive Auditorium.Move (live : Bool) (k : Aud) (a : Auditorium) : Auditorium → Prop
  | book (w : Writer) (e : Epochs) (boundary build : Bool) :
    Move live k a { a with writer := w, epochs := e, boundaryDue := boundary, buildDue := build }
  | batch (u : DirectiveUnit) (showState : u.showState = a.unit.showState) (tag : u.tag = a.unit.tag)
    (channels : u.channels = a.unit.channels) (batch : Batch.Follows a.unit.batch u.batch) :
    Move live k a { a with unit := u }
  | claim (tag : Nat) (role : Role) (selector : Byte) (held tagReset : Bool) :
    Move live k a { a with unit := { a.unit with batch := a.unit.batch.map fun b =>
      { b with phase := .claiming tag role selector held (bindAllowed role a.unit.showState) tagReset } } }
  | count (tag : Nat) (tagReset : Bool) (h : a.BindsCues) :
    Move live k a { a with unit := { a.unit with batch := a.unit.batch.map fun b =>
      { b with phase := .counting tag tagReset } } }
  | tag (t : TagState) (h : a.unit.tag.Sound → t.Sound) : Move live k a { a with unit := { a.unit with tag := t } }
  | channels (c : ChannelSettings) (h : c.Within) : Move live k a { a with unit := { a.unit with channels := c } }
  | receiver (r : Receiver) (h : a.receiver.Sound → r.Sound) : Move live k a { a with receiver := r }
  | clock (c : Clock) (h : a.clock.Within → c.Within) (idle : c.state = .idle ↔ a.clock.state = .idle) :
    Move live k a { a with clock := c }
  | mixer (m : Mixer) (h : a.mixer.Bounded → m.Bounded) : Move live k a { a with mixer := m }
  | link (l : Link) (h : a.link.Sound ∧ a.link.Fits k → l.Sound ∧ l.Fits k) : Move live k a { a with link := l }
  | signal : Move live k a { a with builder := a.builder.signal }
  | sequencer (env : SeqEnv) (r : Sequencer × List SeqOut) (h : Sequencer.Does a env r) :
    Move live k a (a.told live r.1 r.2)
  | newList (h : a.BindsCues) : Move live k a { a with seq := a.seq.newList }
  | list (n : Nat) (h : a.BindsCues) (hn : n ≤ 65535) :
    Move live k a { a with seq := { a.seq with listCount := n } }
  | build (rec : BoundaryRecord) (narration : List AirSection) :
    Move live k a { a with builder := (a.builder.build k a.unit.channels a.seq.active rec narration).1 }
  | close (rec : BoundaryRecord) (narration : List AirSection) (h : a.unit.showState = .closing) :
    Move live k a
      { a with
        builder := (a.builder.buildClosing k a.unit.channels rec narration).1
        unit := { a.unit with showState :=
          if (a.builder.buildClosing k a.unit.channels rec narration).1.closing = 0 then .halted else .closing } }
  | run (h : live = true) (show_ : a.unit.showState = .halted)
    (free : ∀ b, a.unit.batch = some b → b.phase.isFree) : Move live k a a.run
  | halt (b : Auditorium) (show_ : a.unit.showState = .running) (h : a.Halts b) : Move live k a b
  | becomeHalted (h : live = false ∨ a.unit.showState = .dark) : Move live k a (a.becomeHalted k)
  | becomeDark : Move live k a a.becomeDark
  | partStart (h : live = false) : Move live k a a.partStart
  | partStop : Move live k a a.partStop
  | reset : Move live k a (Auditorium.initial k)

/-- Moves one after the other. -/
abbrev Auditorium.Moves (live : Bool) (k : Aud) : Auditorium → Auditorium → Prop :=
  Relation.ReflTransGen (Auditorium.Move live k)

/-- Only the Report Writer, the epoch counters and the due marks have changed. -/
theorem Auditorium.Moves.book {live : Bool} {k : Aud} {a b : Auditorium} (w : Writer) (h : b = { a with writer := w }) :
    Auditorium.Moves live k a b := by
  rw [h]
  exact .single (.book w a.epochs a.boundaryDue a.buildDue)

/-! ## What a command of one auditorium leaves -/

/-- From `s` to `t` the blocks of auditorium `k` move, and beside them only accesses, bindings and latches change. -/
structure State.Works (k : Aud) (s t : State) : Prop where
  pending : t.pending = s.pending
  partState : t.partState = s.partState
  inFlight : ∀ a ∈ t.inFlight, a.aud = some k ∨ ∃ b ∈ s.inFlight, b.aud = a.aud
  others : ∀ j, j ≠ k → t.aud j = s.aud j
  moves : Auditorium.Moves s.live k (s.aud k) (t.aud k)

theorem State.Works.refl (k : Aud) (s : State) : State.Works k s s :=
  ⟨rfl, rfl, fun a ha => .inr ⟨a, ha, rfl⟩, fun _ _ => rfl, .refl⟩

theorem State.Works.trans {k : Aud} {s t u : State} (h : State.Works k s t) (g : State.Works k t u) :
    State.Works k s u where
  pending := g.pending.trans h.pending
  partState := g.partState.trans h.partState
  inFlight := fun a ha => by
    obtain hk | ⟨b, hb, hba⟩ := g.inFlight a ha
    · exact .inl hk
    · obtain hk | ⟨c, hc, hcb⟩ := h.inFlight b hb
      · exact .inl (hba ▸ hk)
      · exact .inr ⟨c, hc, hcb.trans hba⟩
  others := fun j hj => (g.others j hj).trans (h.others j hj)
  moves := by
    have hlive : t.live = s.live := by unfold State.live; rw [h.partState]
    exact h.moves.trans (hlive ▸ g.moves)

/-- An operation that leaves all but its auditorium alone works on it. -/
theorem State.OnlyAud.works {k : Aud} {s t : State} (h : State.OnlyAud k s t) (hadds : State.Adds k s t)
    (hmoves : Auditorium.Moves s.live k (s.aud k) (t.aud k)) : State.Works k s t where
  pending := h.pending
  partState := h.partState
  inFlight := fun a ha => by
    obtain ⟨added, hadded, hk⟩ := hadds
    rw [hadded] at ha
    exact (List.mem_append.mp ha).elim (fun h => .inr ⟨a, h, rfl⟩) fun h => .inl (hk a h)
  others := h.others
  moves := hmoves

theorem State.works_modAud {s : State} {k : Aud} {f : Auditorium → Auditorium}
    (h : Auditorium.Move s.live k (s.aud k) (f (s.aud k))) : State.Works k s (s.modAud k f) :=
  (s.onlyAud_modAud k f).works (.none rfl) (.single (by rwa [State.aud_modAud_same]))

/-- An operation on accesses, bindings or latches alone. -/
theorem State.works_of_auds {s t : State} (k : Aud) (hpending : t.pending = s.pending)
    (hpart : t.partState = s.partState) (hauds : ∀ j, t.aud j = s.aud j)
    (hinFlight : ∀ a ∈ t.inFlight, a.aud = some k ∨ ∃ b ∈ s.inFlight, b.aud = a.aud) : State.Works k s t :=
  ⟨hpending, hpart, hinFlight, fun j _ => hauds j, by rw [hauds]⟩

theorem State.works_report (s : State) (k : Aud) (r : Report) : State.Works k s (s.report k r) :=
  (s.onlyAud_report k r).works (s.adds_report k r) (.book _ (s.report_aud k r k))

theorem State.works_reportAll (s : State) (k : Aud) (l : List Report) : State.Works k s (s.reportAll k l) :=
  (s.onlyAud_reportAll k l).works (s.adds_reportAll k l) (.book _ (s.reportAll_aud k l k))

theorem State.works_access (s : State) (k : Aud) (role : Role) (offset length : Nat) (data : List Byte)
    (purpose : Purpose) : State.Works k s (s.access k role offset length data purpose).1 :=
  (s.onlyAud_access k role offset length data purpose).works (s.adds_access k role offset length data purpose)
    (.book _ (s.access_aud k role offset length data purpose k))

theorem State.works_tableAccess (s : State) (k : Aud) (role : Role) (selector : Byte) (within length : Nat)
    (data : List Byte) (purpose : Purpose) :
    State.Works k s (s.tableAccess (some k) role selector within length data purpose) :=
  (s.onlyAud_tableAccess k _ _ _ _ _ _ _).works (s.adds_tableAccess k _ _ _ _ _ _) .refl

theorem State.works_missReport (s : State) (k : Aud) : State.Works k s (s.missReport k) :=
  (s.onlyAud_missReport k).works (.none rfl) (.book _ (s.missReport_aud k k))

theorem State.works_setNotice (s : State) (k : Aud) : State.Works k s s.setNotice :=
  State.works_of_auds k rfl rfl (fun _ => rfl) fun a ha => .inr ⟨a, ha, rfl⟩

theorem State.works_setHouseFault (s : State) (k : Aud) : State.Works k s s.setHouseFault :=
  State.works_of_auds k rfl rfl (fun _ => rfl) fun a ha => .inr ⟨a, ha, rfl⟩

theorem State.works_seqStep {s : State} {k : Aud} {f : SeqEnv → Sequencer → Sequencer × List SeqOut}
    (h : Sequencer.Does (s.aud k) (s.seqEnv k) (f (s.seqEnv k) (s.aud k).seq)) : State.Works k s (s.seqStep k f) :=
  (s.onlyAud_seqStep k f).works (State.Adds.trans (.none rfl) (State.adds_seqSendAll _ k _))
    ((Relation.ReflTransGen.single (.sequencer _ _ h)).trans (Auditorium.Moves.book _ (s.seqStep_told k f)))

/-! ## The batch (R152 to R154) -/

/-- An update of the Directive Unit that keeps show state, tag state and settings, and what its batch waits for. -/
theorem State.works_modUnit {s : State} {k : Aud} {f : DirectiveUnit → DirectiveUnit}
    (hshow : (f (s.aud k).unit).showState = (s.aud k).unit.showState)
    (htag : (f (s.aud k).unit).tag = (s.aud k).unit.tag)
    (hchannels : (f (s.aud k).unit).channels = (s.aud k).unit.channels)
    (hbatch : Batch.Follows (s.aud k).unit.batch (f (s.aud k).unit).batch) : State.Works k s (s.modUnit k f) :=
  State.works_modAud (.batch _ hshow htag hchannels hbatch)

/-- A batch that is changed but for its phase. -/
theorem Batch.follows_map (b : Option Batch) (f : Batch → Batch) (h : ∀ x, (f x).phase = x.phase) :
    Batch.Follows b (b.map f) := fun y hy => by
  obtain ⟨x, rfl, rfl⟩ := Option.map_eq_some_iff.mp hy
  exact .inr ⟨x, rfl, h x⟩

/-- A batch that waits for no claim and no header. -/
theorem Batch.follows_free (b : Option Batch) {y : Batch} (h : y.phase.isFree) : Batch.Follows b (some y) :=
  fun z hz => by cases hz; exact .inl h

theorem Batch.follows_refl (b : Option Batch) : Batch.Follows b b := fun y hy => .inr ⟨y, hy, rfl⟩

theorem Batch.follows_none (b : Option Batch) : Batch.Follows b none := fun _ h => (nomatch h)

theorem State.works_await (s : State) (k : Aud) (tag : Option Nat) : State.Works k s (s.await k tag) :=
  State.works_modUnit rfl rfl rfl (Batch.follows_map _ _ fun _ => rfl)

theorem State.works_batchWrite (s : State) (k : Aud) (offset : Nat) (data : List Byte) :
    State.Works k s (s.batchWrite k offset data) :=
  (s.works_access k .showRecord offset data.length data .resultWrite).trans (State.works_await _ k _)

theorem State.works_writeUnprocessed (s : State) (k : Aud) (n : Nat) :
    State.Works k s (s.writeUnprocessed k n) := by
  unfold State.writeUnprocessed
  generalize (List.range 8).drop n = slots
  induction slots generalizing s with
  | nil => exact .refl k s
  | cons i rest ih => exact (s.works_batchWrite k _ _).trans (ih _)

theorem State.works_acknowledge (s : State) (k : Aud) (b : Batch) : State.Works k s (s.acknowledge k b) :=
  (State.works_modUnit rfl rfl rfl (Batch.follows_free _ (by trivial))).trans (State.works_access _ k _ _ _ _ _)

theorem State.works_settleBatch (s : State) (k : Aud) : State.Works k s (s.settleBatch k) := by
  unfold State.settleBatch
  split
  · exact .refl k s
  · split
    · exact s.works_acknowledge k _
    · exact .refl k s

theorem State.works_comeToSlot (s : State) (k : Aud) (n : Nat) : State.Works k s (s.comeToSlot k n) := by
  unfold State.comeToSlot
  split
  · exact .refl k s
  · split
    · exact ((State.works_modUnit rfl rfl rfl (Batch.follows_free _ (by trivial))).trans
        (State.works_writeUnprocessed _ k n)).trans (State.works_settleBatch _ k)
    · exact State.works_modUnit rfl rfl rfl (Batch.follows_free _ (by trivial))

theorem State.works_decide (s : State) (k : Aud) (conditions : Byte) (reply : List Byte) :
    State.Works k s (s.decide k conditions reply) := by
  unfold State.decide
  split
  · exact .refl k s
  · exact (s.works_batchWrite k _ _).trans (State.works_comeToSlot _ k _)

theorem State.works_batchDone (s : State) (k : Aud) (tag : Nat) : State.Works k s (s.batchDone k tag) :=
  (State.works_modUnit rfl rfl rfl (by exact Batch.follows_map _ _ fun _ => rfl)).trans (State.works_settleBatch _ k)

theorem State.works_setTag {s : State} {k : Aud} {t : TagState} (h : (s.aud k).unit.tag.Sound → t.Sound) :
    State.Works k s (s.modUnit k fun u => { u with tag := t }) :=
  State.works_modAud (.tag t h)

theorem State.works_emptyTag (s : State) (k : Aud) : State.Works k s (s.emptyTag k) :=
  State.works_setTag fun _ => trivial

theorem State.works_settle (s : State) (k : Aud) (condition : Byte) : State.Works k s (s.settle k condition) :=
  (s.works_emptyTag k).trans (State.works_decide _ k _ _)

end Sys2Proof.Machine
end

section
/-! SUPPORT. What each operation of the Timecode Receiver and of the Show Clock keeps (R1 to R35). -/

namespace Sys2Proof.Machine

/-! ## The receiver (R1 to R5) -/

theorem Receiver.sound_of_hunting {r : Receiver} (hs : r.state = .hunting) (hb : r.buffer = [])
    (hf : r.firstTick = none) (hl : r.latestTick = none) : r.Sound :=
  ⟨fun _ => ⟨hb, hf, hl⟩, fun h => absurd (hs.symm.trans h) (by decide)⟩

theorem Receiver.Sound.hunt {r : Receiver} (h : r.Sound) (t : Word) (b : Byte) : (r.hunt t b).Sound := by
  unfold Receiver.hunt
  split
  · next hb => exact ⟨fun h => (nomatch h), fun _ => ⟨by simp [hb, syncByte], by simp, rfl, rfl⟩⟩
  · exact h

theorem Receiver.sound_complete (r : Receiver) (m : List Byte) (trim : Int) : (r.complete m trim).1.Sound := by
  unfold Receiver.complete
  split <;> exact Receiver.sound_of_hunting rfl rfl rfl rfl

theorem Receiver.Sound.append {r : Receiver} (h : r.Sound) (ha : r.state = .assembling) (t : Word) (b : Byte)
    (trim : Int) : (r.append t b trim).1.Sound := by
  obtain ⟨hhead, _, hfirst, _⟩ := h.assembling ha
  unfold Receiver.append
  simp only
  split
  · exact r.sound_complete _ trim
  · next hshort =>
    refine ⟨fun h => absurd (ha.symm.trans h) (by decide), fun _ => ⟨?_, ?_, hfirst, rfl⟩⟩
    · rw [List.head?_append, hhead]
      rfl
    · dsimp only
      omega

/-- R2 to R4: taking a byte keeps the buffer in agreement with the state. -/
theorem Receiver.Sound.take {r : Receiver} (h : r.Sound) (t : Word) (b : Byte) (trim : Int) :
    (r.take t b trim).1.Sound := by
  unfold Receiver.take
  cases ha : r.state with
  | hunting => exact h.hunt t b
  | assembling =>
    simp only
    split
    · exact (Receiver.sound_of_hunting (r := r.abandon) rfl rfl rfl rfl).hunt t b
    · exact h.append ha t b trim

/-! ## The clock at a frame boundary (R14 to R16) -/

theorem limitTo_mem {m v : Int} (h : 0 ≤ m) : -m ≤ limitTo m v ∧ limitTo m v ≤ m := by
  unfold limitTo
  omega

theorem Clock.Within.moveTime {c : Clock} (h : c.Within) (t : Word) : (c.moveTime t).Within := by
  unfold Clock.moveTime
  split
  · exact { h with fraction := by dsimp only; omega, slew := by simp }
  · exact { h with }

/-- R15: silence that leads to no other state keeps to holdover, which is at most 255. -/
theorem Clock.Within.countSilence {c : Clock} (h : c.Within) : c.countSilence.clock.Within := by
  have hholdover := h.loop.holdover
  unfold Clock.countSilence
  simp only
  split
  · next hcounts =>
    have hsilence := h.counting hcounts
    split
    · exact { h with
        slew := by simp, acquiring := fun h => (nomatch h), silence := by dsimp only; omega
        counting := fun h => (nomatch h) }
    · split
      · exact { h with
          slew := by simp, acquiring := fun h => (nomatch h), silence := by dsimp only; omega
          counting := fun _ => by dsimp only; omega }
      · exact { h with silence := by dsimp only; omega, counting := fun _ => by dsimp only; omega }
  · exact h

theorem Clock.Within.boundary {c : Clock} (h : c.Within) (t : Word) : (c.boundary t).clock.Within :=
  { (h.moveTime t).countSilence with }

theorem Clock.moveTime_state (c : Clock) (t : Word) : (c.moveTime t).state = c.state := by
  unfold Clock.moveTime
  split <;> rfl

/-- R15: counting silence leads to LOST, from LOCKED to FLYWHEEL, or leaves the state; a clear order goes out with
LOST alone. -/
theorem Clock.countSilence_cases (c : Clock) :
    (c.state.counts = true ∧ c.loop.holdover < c.silence + 1 ∧ c.countSilence.clock.state = .lost
      ∧ c.countSilence.signal = some .clear) ∨
    (c.state = .locked ∧ c.countSilence.clock.state = .flywheel ∧ c.countSilence.signal = none) ∨
    (c.countSilence.clock.state = c.state ∧ c.countSilence.signal = none) := by
  unfold Clock.countSilence
  simp only
  split
  · next hcounts =>
    split
    · next h => exact .inl ⟨hcounts, h, rfl, rfl⟩
    · split
      · next h => exact .inr (.inl ⟨h.1, rfl, rfl⟩)
      · exact .inr (.inr ⟨rfl, rfl⟩)
  · exact .inr (.inr ⟨rfl, rfl⟩)

/-! ## What an answer of the clock keeps -/

/-- The clock of an answer stays in its ranges, is IDLE where `c` was, and is not IDLE where it signals. -/
structure Clock.Answers (c : Clock) (x : ClockAnswer) : Prop where
  within : c.Within → x.clock.Within
  idle : x.clock.state = .idle ↔ c.state = .idle
  signal : x.signal ≠ none → x.clock.state ≠ .idle

theorem Clock.answers_boundary (c : Clock) (t : Word) : c.Answers (c.boundary t) := by
  have hs : (c.boundary t).clock.state = (c.moveTime t).countSilence.clock.state := rfl
  have hg : (c.boundary t).signal = (c.moveTime t).countSilence.signal := rfl
  refine ⟨fun h => h.boundary t, ?_, ?_⟩ <;> rw [hs]
  · obtain ⟨hc, _, h, _⟩ | ⟨hc, h, _⟩ | ⟨h, _⟩ := (c.moveTime t).countSilence_cases
    · rw [c.moveTime_state] at hc
      rw [h]
      exact ⟨fun h => (nomatch h), fun h => by rw [h] at hc; exact nomatch hc⟩
    · rw [c.moveTime_state] at hc
      simp [h, hc]
    · rw [h, c.moveTime_state]
  · rw [hg]
    obtain ⟨_, _, h, _⟩ | ⟨_, h, _⟩ | ⟨_, h⟩ := (c.moveTime t).countSilence_cases
    · simp [h]
    · simp [h]
    · exact fun hn => absurd h hn

/-! ## Steering and reports (R17 to R31) -/

theorem Clock.steer_state (c : Clock) (e : Int) : (c.steer e).1.state = c.state := by
  unfold Clock.steer
  simp only
  split <;> rfl

theorem Clock.steer_acquire (c : Clock) (e : Int) : (c.steer e).1.acquire = c.acquire := by
  unfold Clock.steer
  simp only
  split <;> rfl

theorem Clock.movedTally_near (c : Clock) (raw : Int) :
    c.tally - 1 ≤ c.movedTally raw ∧ c.movedTally raw ≤ c.tally + 1 := by
  unfold Clock.movedTally
  split
  · omega
  · split
    · omega
    · split <;> omega

/-- R19 to R22: steering by an error within the threshold keeps every range. -/
theorem Clock.Within.steer {c : Clock} (h : c.Within) {e : Int} (he : e.natAbs ≤ 2400) :
    (c.steer e).1.Within := by
  have hslew : -48 ≤ c.slewed e ∧ c.slewed e ≤ 48 := limitTo_mem (by decide)
  have heps := limitTo_mem (v := c.rawEps e) (Int.natCast_nonneg c.loop.epsMax)
  have htally := c.movedTally_near (c.rawEps e)
  have hrange := h.tally
  unfold Clock.steer
  simp only
  split
  · exact { h with eps := heps, slew := hslew, e1 := by dsimp only; omega, e2 := h.e1, tally := by simp }
  · exact { h with
      eps := heps, slew := hslew, e1 := by dsimp only; omega, e2 := h.e1, tally := by dsimp only; omega }

theorem Clock.Within.seat {c : Clock} (h : c.Within) (hs : c.silence ≤ 255) (p : PositionReport) :
    (c.seat p).clock.Within := by
  unfold Clock.seat
  refine { h with
    fraction := by simp, slew := by simp, e1 := by simp, e2 := by simp, acquire := ?_, acquiring := ?_
    counting := fun _ => hs }
  · dsimp only
    split
    · exact h.acquire
    · omega
  · dsimp only
    split
    · exact fun h => nomatch h
    · exact fun _ => by omega

theorem Clock.Within.freeze {c : Clock} (h : c.Within) (hs : c.silence ≤ 255) (pred : Int) (p : PositionReport) :
    (c.freeze pred p).clock.Within :=
  { h with slew := by simp [Clock.freeze], acquiring := fun h => (nomatch h), counting := fun _ => hs }

theorem Clock.Within.resume {c : Clock} (h : c.Within) (hs : c.silence ≤ 255) (p : PositionReport) :
    (c.resume p).clock.Within :=
  { h with slew := by simp [Clock.resume], acquiring := fun h => (nomatch h), counting := fun _ => hs }

theorem Clock.Within.stopped {c : Clock} (h : c.Within) (hs : c.silence ≤ 255) (order : Bool) :
    (c.stopped order).clock.Within :=
  { h with slew := by simp [Clock.stopped], acquiring := fun h => (nomatch h), counting := fun _ => hs }

theorem Clock.Within.acquireStep {c : Clock} (h : c.Within) (ha : c.state = .acquiring) {e : Int}
    (he : e.natAbs ≤ 240) : (c.acquireStep e).clock.Within := by
  have h1 := h.steer (e := e) (by omega)
  have hcount := h.acquiring ha
  have hsteer := c.steer_acquire e
  have hsilence := h1.counting (by rw [c.steer_state, ha]; rfl)
  unfold Clock.acquireStep
  simp only
  split
  · exact { h1 with acquire := by dsimp only; omega, acquiring := fun h => (nomatch h), counting := fun _ => hsilence }
  · exact { h1 with acquire := by dsimp only; omega, acquiring := fun _ => by dsimp only; omega }

theorem Clock.Within.flywheelStep {c : Clock} (h : c.Within) (hs : c.silence ≤ 255) {e : Int}
    (he : e.natAbs ≤ 2400) : (c.flywheelStep e).clock.Within := by
  have h1 := h.steer he
  have hsilence : (c.steer e).1.silence ≤ 255 := by
    unfold Clock.steer
    simp only
    split <;> exact hs
  exact { h1 with acquiring := fun h => (nomatch h), counting := fun _ => hsilence }

section Answers
variable {c : Clock} (hn : c.state ≠ .idle) (hs : c.silence ≤ 255) (p : PositionReport)
include hn

include hs in
theorem Clock.answers_seat : c.Answers (c.seat p) := by
  refine ⟨fun h => h.seat hs p, ?_, fun _ => ?_⟩ <;>
    (simp only [Clock.seat]; split <;> simp [hn])

include hs in
theorem Clock.answers_freeze (pred : Int) : c.Answers (c.freeze pred p) :=
  ⟨fun h => h.freeze hs pred p, by simp [Clock.freeze, hn], by simp [Clock.freeze]⟩

include hs in
theorem Clock.answers_resume : c.Answers (c.resume p) :=
  ⟨fun h => h.resume hs p, by simp [Clock.resume, hn], by simp [Clock.resume]⟩

include hs in
theorem Clock.answers_stopped (order : Bool) : c.Answers (c.stopped order) :=
  ⟨fun h => h.stopped hs order, by simp [Clock.stopped, hn], by simp [Clock.stopped]⟩

theorem Clock.answers_acquireStep (ha : c.state = .acquiring) {e : Int} (he : e.natAbs ≤ 240) :
    c.Answers (c.acquireStep e) := by
  refine ⟨fun h => h.acquireStep ha he, ?_, ?_⟩ <;>
    (simp only [Clock.acquireStep]; split <;> simp [Clock.steer_state, hn])

omit hn in
theorem Clock.answers_lockedStep {e : Int} (he : e.natAbs ≤ 2400) : c.Answers (c.lockedStep e) :=
  ⟨fun h => h.steer he, by simp [Clock.lockedStep, Clock.steer_state], by simp [Clock.lockedStep]⟩

include hs in
theorem Clock.answers_flywheelStep {e : Int} (he : e.natAbs ≤ 2400) : c.Answers (c.flywheelStep e) :=
  ⟨fun h => h.flywheelStep hs he, by simp [Clock.flywheelStep, hn], by simp [Clock.flywheelStep]⟩

omit hn in
theorem Clock.answers_unmoved : c.Answers { clock := c, reports := [], signal := none } :=
  ⟨fun h => h, Iff.rfl, fun h => absurd rfl h⟩

include hs in
/-- R28 to R31: a report above the threshold seats, one within it is answered by `x`. -/
theorem Clock.answers_threshold {P : Prop} [Decidable P] {x : ClockAnswer} (h : P → c.Answers x) :
    c.Answers (if P then x else c.seat p) := by
  split
  · next hP => exact h hP
  · exact c.answers_seat hn hs p

end Answers

/-- R27 to R31: in each state that hears reports, the clock of the answer is in range and not IDLE. -/
theorem Clock.answers_of_state {c : Clock} (hs : c.silence ≤ 255) (p : PositionReport) :
    (c.state = .searching → c.Answers (c.reportSearching p)) ∧
    (c.state = .acquiring → c.Answers (c.reportAcquiring p)) ∧
    (c.state = .locked → c.Answers (c.reportLocked p)) ∧
    (c.state = .flywheel → c.Answers (c.reportFlywheel p)) ∧
    (c.state = .paused → c.Answers (c.reportPaused p)) ∧
    (c.state = .lost → c.Answers (c.reportLost p)) := by
  refine ⟨fun hc => ?_, fun hc => ?_, fun hc => ?_, fun hc => ?_, fun hc => ?_, fun hc => ?_⟩ <;>
    have hn : c.state ≠ .idle := by rw [hc]; decide
  · unfold Clock.reportSearching
    cases p.state with
    | play => exact answers_seat hn hs p
    | pause => exact answers_seat hn hs p
    | stop => exact answers_unmoved
  · unfold Clock.reportAcquiring
    cases p.state with
    | play => exact answers_threshold hn hs p fun he => answers_acquireStep hn hc he
    | pause => exact answers_threshold hn hs p fun _ => answers_freeze hn hs p _
    | stop => exact answers_stopped hn hs true
  · unfold Clock.reportLocked
    cases p.state with
    | play => exact answers_threshold hn hs p fun he => answers_lockedStep he
    | pause => exact answers_threshold hn hs p fun _ => answers_freeze hn hs p _
    | stop => exact answers_stopped hn hs true
  · unfold Clock.reportFlywheel
    cases p.state with
    | play => exact answers_threshold hn hs p fun he => answers_flywheelStep hn hs he
    | pause => exact answers_threshold hn hs p fun _ => answers_freeze hn hs p _
    | stop => exact answers_stopped hn hs true
  · unfold Clock.reportPaused
    cases p.state with
    | play => exact answers_threshold hn hs p fun _ => answers_resume hn hs p
    | pause =>
      simp only
      split
      · exact answers_seat hn hs p
      · exact answers_unmoved
    | stop => exact answers_stopped hn hs true
  · unfold Clock.reportLost
    cases p.state with
    | play => exact answers_seat hn hs p
    | pause => exact answers_seat hn hs p
    | stop => exact answers_stopped hn hs false

/-- R17: the clock that has heard a report, its silence count 0. -/
theorem Clock.Answers.of_heard {c : Clock} {x : ClockAnswer}
    (h : ({ c with silence := 0 } : Clock).Answers x) : c.Answers x :=
  ⟨fun hc => h.within { hc with silence := by simp, counting := fun _ => by simp }, h.idle, h.signal⟩

/-- R17: a report keeps every range; an IDLE clock drops it, and no other clock becomes IDLE. -/
theorem Clock.answers_report (c : Clock) (p : PositionReport) : c.Answers (c.report p) := by
  obtain ⟨hsearching, hacquiring, hlocked, hflywheel, hpaused, hlost⟩ :=
    Clock.answers_of_state (c := { c with silence := 0 }) (Nat.zero_le _) p
  unfold Clock.report
  simp only
  split
  · exact ⟨fun h => h, Iff.rfl, fun h => absurd rfl h⟩
  · next hc => exact .of_heard (hsearching hc)
  · next hc => exact .of_heard (hacquiring hc)
  · next hc => exact .of_heard (hlocked hc)
  · next hc => exact .of_heard (hflywheel hc)
  · next hc => exact .of_heard (hpaused hc)
  · next hc => exact .of_heard (hlost hc)

/-! ## Directives and resets (R32 to R35) -/

theorem Clock.Within.cleared {c : Clock} (h : c.Within) : c.cleared.Within :=
  { h with
    fraction := by simp [Clock.cleared], eps := by simp [Clock.cleared], slew := by simp [Clock.cleared]
    e1 := by simp [Clock.cleared], e2 := by simp [Clock.cleared], acquire := by simp [Clock.cleared]
    acquiring := fun h => (nomatch h), silence := by simp [Clock.cleared], counting := fun h => (nomatch h)
    tally := by simp [Clock.cleared] }

theorem Clock.Within.toIdle {c : Clock} (h : c.Within) : c.toIdle.1.Within := by
  unfold Clock.toIdle
  split
  · exact h
  · exact h.cleared

theorem Clock.toIdle_state (c : Clock) : c.toIdle.1.state = .idle := by
  unfold Clock.toIdle
  split
  · assumption
  · rfl

theorem Clock.Within.run {c : Clock} (h : c.Within) : c.run.Within :=
  { h.cleared with
    acquiring := fun h => (nomatch h), counting := fun _ => by simp [Clock.run, Clock.cleared] }

theorem Clock.Within.setLoop {c : Clock} (h : c.Within) {l : LoopSettings} (hl : l.Within) : (c.setLoop l).Within :=
  { h with loop := hl, eps := limitTo_mem (Int.natCast_nonneg _) }

/-- R147: the default loop settings have the greatest limit of the rate offset. -/
theorem Clock.Within.defaultLoop {c : Clock} (h : c.Within) : ({ c with loop := .initial } : Clock).Within := by
  have hmax := h.loop.epsMax
  have heps := h.eps
  exact { h with loop := LoopSettings.within_initial, eps := by simp only [LoopSettings.initial]; omega }

/-- R162: the settings a SET_LOOP carries are in their ranges. -/
theorem loopOf_within {c0 c1 c2 : Half} {pm : Byte} {epsMax : Half} {holdover : Byte} {trim : Half} {l : LoopSettings}
    (h : loopOf c0 c1 c2 pm epsMax holdover trim = some l) : l.Within := by
  rw [loopOf_eq] at h
  split at h
  · exact nomatch h
  · next hin =>
    cases h
    have := c0.toInt_lt; have := c0.le_toInt; have := c1.toInt_lt; have := c1.le_toInt
    have := c2.toInt_lt; have := c2.le_toInt; have := holdover.isLt
    constructor <;> dsimp only <;> omega

end Sys2Proof.Machine
end

section
/-! SUPPORT. What each operation of the Emitter Link, the Narration Mixer and the tag state keeps, and the payload of a
built frame (R76 to R91, R99, R116 to R131, R167). -/

namespace Sys2Proof.Machine

/-! ## The link (R116 to R131) -/

/-- The link keeps its promises: slots and marks agree and the frames keep the payload limit. -/
def Link.Good (k : Aud) (l : Link) : Prop := l.Sound ∧ l.Fits k

section Links
variable {k : Aud} {l : Link} (h : l.Good k)
include h

/-- The slots and counts are as before, and the state is IDLE exactly where it was. -/
theorem Link.Good.of_same {l' : Link} (hframe : l'.frame = l.frame) (hnext : l'.next = l.next)
    (hcount : l'.unanswered = l.unanswered) (hdown : l'.down = l.down)
    (hstate : l'.state = .idle ↔ l.state = .idle) (hretry : l'.retryDue = true → l'.state = .waiting) :
    l'.Good k := by
  obtain ⟨hs, hf⟩ := h
  exact ⟨⟨by rw [hstate, hframe]; exact hs.idle, by rw [hframe, hnext]; exact hs.next, hretry,
    by rw [hcount]; exact hs.unanswered, by rw [hdown, hcount]; exact hs.down⟩,
    by rw [hframe]; exact hf.frame, by rw [hnext]; exact hf.next⟩

/-- The link is as before but for what no promise speaks of. -/
theorem Link.Good.of_state {l' : Link} (hframe : l'.frame = l.frame) (hnext : l'.next = l.next)
    (hcount : l'.unanswered = l.unanswered) (hdown : l'.down = l.down) (hstate : l'.state = l.state)
    (hretry : l'.retryDue = l.retryDue) : l'.Good k :=
  h.of_same hframe hnext hcount hdown (by rw [hstate]) (by rw [hstate, hretry]; exact h.1.retryDue)

theorem Link.Good.countDrop : l.countDrop.Good k := h.of_state rfl rfl rfl rfl rfl rfl

theorem Link.Good.drive (b : Option Byte) : ({ l with out := b } : Link).Good k := h.of_state rfl rfl rfl rfl rfl rfl

theorem Link.Good.fly {f : AirFrame} (hf : f.Fits k) : (l.fly f).Good k := by
  obtain ⟨hs, hfits⟩ := h
  exact ⟨⟨by simp [Link.fly], fun h => (nomatch h), fun h => (nomatch h), hs.unanswered, hs.down⟩,
    fun g hg => by cases hg; exact hf, hfits.next⟩

theorem Link.Good.advance : l.advance.Good k := by
  obtain ⟨hs, hfits⟩ := h
  unfold Link.advance
  split
  · next f hn =>
    have hrest : Link.Good k { l with next := none, finishing := false } :=
      ⟨⟨hs.idle, fun _ => rfl, hs.retryDue, hs.unanswered, hs.down⟩, hfits.frame, fun _ h => (nomatch h)⟩
    exact hrest.fly (hfits.next f hn)
  · next hn =>
    exact ⟨⟨by simp, fun _ => hn, fun h => (nomatch h), hs.unanswered, hs.down⟩, fun _ h => (nomatch h), hfits.next⟩

theorem Link.Good.handoff {f : AirFrame} (hf : f.Fits k) : (l.handoff f).Good k := by
  obtain ⟨hs, hfits⟩ := h
  have hpending (dropped : Word) : l.frame ≠ none → Link.Good k { l with dropped := dropped, next := some f } :=
    fun hn => ⟨⟨hs.idle, fun h => absurd h hn, hs.retryDue, hs.unanswered, hs.down⟩, hfits.frame,
      fun g hg => by cases hg; exact hf⟩
  unfold Link.handoff
  split
  · exact Link.Good.fly ⟨hs, hfits⟩ hf
  · next hframe _ => exact hpending l.dropped (by simp [hframe])
  · next hframe _ => exact hpending _ (by simp [hframe])

/-- R126: the fiftieth unanswered drop in a row sets DOWN. -/
theorem Link.Good.unansweredDrop : l.unansweredDrop.1.Good k := by
  obtain ⟨hs, hfits⟩ := h
  have hcount := hs.unanswered
  have hdown := hs.down
  have hgood (n : Nat) (d : Bool) (hn : n ≤ 50) (hd : d = true ↔ n = 50) :
      Link.Good k { l.countDrop with unanswered := n, down := d } :=
    ⟨⟨hs.idle, hs.next, hs.retryDue, hn, hd⟩, hfits.frame, hfits.next⟩
  unfold Link.unansweredDrop
  by_cases hlt : l.unanswered < 50
  · by_cases h49 : l.unanswered + 1 = 50
    · simpa [hlt, h49] using hgood 50 true (by omega) (by simp)
    · simpa [hlt, h49] using hgood (l.unanswered + 1) l.countDrop.down (by omega) (hdown.trans (by omega))
  · simpa [hlt] using hgood 50 l.countDrop.down (by omega) (hdown.trans (by omega))

theorem Link.Good.callExchange (c : ChannelSettings) : (l.callExchange c).Good k := by
  unfold Link.callExchange
  split
  · exact h.of_state rfl rfl rfl rfl rfl rfl
  · exact h

theorem Link.Good.toWaiting (hn : l.state ≠ .idle) : l.toWaiting.Good k := by
  unfold Link.toWaiting
  split
  · exact h.advance
  · exact h.of_same rfl rfl rfl rfl (by simp [hn]) fun h => (nomatch h)

theorem Link.Good.heeded (hn : l.state ≠ .idle) (hr : l.retryDue = false) : l.heeded.1.Good k := by
  obtain ⟨hs, hfits⟩ := h
  exact ⟨⟨by simp only [Link.heeded]; rw [← hs.idle]; simp [hn], hs.next,
    fun h => by simp [Link.heeded, hr] at h, by simp [Link.heeded], by simp [Link.heeded]⟩, hfits.frame, hfits.next⟩

/-- A retry is due only in WAITING (R124, R125). -/
theorem Link.Good.retryDue_eq_false (hn : l.state ≠ .waiting) : l.retryDue = false := by
  cases hr : l.retryDue with
  | false => rfl
  | true => exact absurd (h.1.retryDue hr) hn

theorem Link.Good.answerExchange (b : Byte) : (l.answerExchange b).1.Good k := by
  unfold Link.answerExchange
  split
  · next hc =>
    have hn : l.state ≠ .idle := by rw [hc.1]; decide
    have hr := h.retryDue_eq_false (by rw [hc.1]; decide)
    have h1 := h.drive (some tokenPoll)
    simp only
    split
    · exact h1.heeded hn hr
    · split
      · exact h1.countDrop.advance
      · split
        · exact h1.of_state rfl rfl rfl rfl rfl rfl
        · exact h1.unansweredDrop.advance
  · exact h

theorem Link.Good.sendExchange (b : Byte) : (l.sendExchange b).Good k := by
  unfold Link.sendExchange
  split
  · next hc =>
    have hn : l.state ≠ .idle := by rw [hc]; decide
    have hr := h.retryDue_eq_false (by rw [hc]; decide)
    split
    · exact (h.drive _).countDrop.toWaiting hn
    · have h1 (sent : Nat) (out : Option Byte) : ({ l with out := out, sent := sent } : Link).Good k :=
        h.of_state rfl rfl rfl rfl rfl rfl
      simp only
      split
      · split
        · exact (h1 _ _).countDrop.toWaiting hn
        · exact h.of_state rfl rfl rfl rfl rfl rfl
      · split
        · exact h.of_same rfl rfl rfl rfl (by simp [hn]) fun h => by rw [hr] at h; exact nomatch h
        · exact h1 _ _
  · exact h

theorem Link.Good.checkFailed (hn : l.state ≠ .idle) : l.checkFailed.Good k := by
  unfold Link.checkFailed
  split
  · exact h.of_same rfl rfl rfl rfl (by simp [hn]) fun _ => rfl
  · exact h.countDrop.toWaiting hn

theorem Link.Good.verdictExchange (b : Byte) : (l.verdictExchange b).1.Good k := by
  unfold Link.verdictExchange
  split
  · next hc =>
    have hn : l.state ≠ .idle := by rw [hc]; decide
    have h1 := h.drive (some tokenPoll)
    simp only
    split
    · exact h1.toWaiting hn
    · split
      · exact h1.checkFailed hn
      · split
        · exact h1.countDrop.toWaiting hn
        · split
          · exact h1.countDrop.advance
          · split
            · exact h1
            · exact h1.unansweredDrop.advance
  · exact h

theorem Link.Good.waitExchange (b : Byte) : (l.waitExchange b).Good k := by
  unfold Link.waitExchange
  split
  · next hc =>
    have h1 := h.drive (some tokenPoll)
    simp only
    split
    · exact h1
    · split
      · exact h.of_same rfl rfl rfl rfl (by simp [hc]) fun h => (nomatch h)
      · exact h1.advance
  · exact h

theorem Link.Good.run : l.run.Good k := h.of_state rfl rfl rfl rfl rfl rfl

theorem Link.Good.discardNext : l.discardNext.Good k := by
  obtain ⟨hs, hfits⟩ := h
  unfold Link.discardNext
  split
  · exact ⟨hs, hfits⟩
  · exact ⟨⟨hs.idle, fun _ => rfl, hs.retryDue, hs.unanswered, hs.down⟩, hfits.frame, fun _ h => (nomatch h)⟩

theorem Link.Good.finishUp : l.finishUp.Good k := by
  have h1 := h.discardNext
  unfold Link.finishUp
  simp only
  split
  · exact h1
  · split
    · exact h1.of_state rfl rfl rfl rfl rfl rfl
    · exact h1.countDrop.advance
  · exact h1.of_state rfl rfl rfl rfl rfl rfl
  · exact h1.of_state rfl rfl rfl rfl rfl rfl
  · split
    · exact h1.countDrop.advance
    · exact h1.advance

theorem Link.Good.becomeHalted : (l.becomeHalted k).Good k := by
  unfold Link.becomeHalted
  split
  · exact h.of_state rfl rfl rfl rfl rfl rfl
  · exact h

omit h in
theorem Link.good_partStart (l : Link) : l.partStart.Good k :=
  ⟨⟨by simp [Link.partStart], fun _ => rfl, fun h => (nomatch h), Nat.zero_le _, by simp [Link.partStart]⟩,
    fun _ h => (nomatch h), fun _ h => (nomatch h)⟩

end Links

/-! ## The payload of a frame (R99) -/

theorem payloadSize_append (l m : List AirSection) : payloadSize (l ++ m) = payloadSize l + payloadSize m := by
  simp [payloadSize]

@[simp] theorem payloadSize_nil : payloadSize [] = 0 := rfl

@[simp] theorem payloadSize_cons (x : AirSection) (l : List AirSection) :
    payloadSize (x :: l) = x.size + payloadSize l := by simp [payloadSize]

/-- R99, R105: the queue walk counts the bytes it places, and stays within the limit. -/
theorem walkQueue_used (sec : QueueEntry → Option AirSection) (q : List QueueEntry) (used : Nat) :
    (walkQueue sec q used).used = used + payloadSize (walkQueue sec q used).sections ∧
      (used ≤ 1536 → (walkQueue sec q used).used ≤ 1536) := by
  induction q generalizing used with
  | nil => exact ⟨rfl, id⟩
  | cons e rest ih =>
    unfold walkQueue
    split
    · exact ih used
    · next x _ =>
      split
      · next hfits =>
        obtain ⟨hsum, hlimit⟩ := ih (used + x.size)
        exact ⟨by simp only [payloadSize_cons]; omega, fun _ => hlimit hfits⟩
      · exact ⟨rfl, id⟩

/-- R99, R107: the refreshes placed keep to the limit. -/
theorem placeRefreshes_used (refresh : Nat) (sec : AirRecord → Option AirSection) (l : List AirRecord) (used : Nat)
    (h : used ≤ 1536) : used + payloadSize (placeRefreshes refresh sec l used).2 ≤ 1536 := by
  induction l generalizing used with
  | nil => exact h
  | cons r rest ih =>
    unfold placeRefreshes
    split
    · next x hx =>
      have hfits : used + x.size ≤ 1536 := of_decide_eq_true (Option.filter_eq_some_iff.mp hx).2
      have := ih _ hfits
      simp only [payloadSize_cons]
      omega
    · exact ih used h

/-- R90, R99: a frame has at most one narration section for each channel. -/
theorem Mixer.frame_payload (m : Mixer) (mask : BitVec 2) (rec : BoundaryRecord) :
    payloadSize (m.frame mask rec).2.1 ≤ 968 := by
  have hplayed (v w : Bool) (x y : AirSection) (hx : x.size = 484) (hy : y.size = 484) :
      payloadSize ((if v then [x] else []) ++ if w then [y] else []) ≤ 968 := by
    cases v <;> cases w <;> simp [hx, hy]
  unfold Mixer.frame
  split
  · exact hplayed _ _ _ _ rfl rfl
  · exact hplayed _ _ _ _ rfl rfl

/-- R99: an ordinary frame keeps the payload limit. -/
theorem Builder.build_fits (b : Builder) (k : Aud) (c : ChannelSettings) (active : Vector (List ActiveCue) 4)
    (rec : BoundaryRecord) {narration : List AirSection} (h : payloadSize narration ≤ 968) :
    (b.build k c active rec narration).2.Fits k := by
  refine ⟨rfl, ?_⟩
  have hwalk := walkQueue_used (entrySection (stepCountdowns b.records) active rec.showTime) b.queue
    (payloadSize narration)
  simp only [Builder.build, AirFrame.payload, payloadSize_append]
  rw [← hwalk.1]
  exact placeRefreshes_used _ _ _ _ (hwalk.2 (by omega))

/-- R113: a closing frame keeps the payload limit. -/
theorem Builder.buildClosing_fits (b : Builder) (k : Aud) (c : ChannelSettings) (rec : BoundaryRecord)
    {narration : List AirSection} (h : payloadSize narration ≤ 968) :
    (b.buildClosing k c rec narration).2.Fits k := by
  refine ⟨rfl, ?_⟩
  have hclears (l : List Channel) : payloadSize (l.map AirSection.clear) = 4 * l.length := by
    induction l with
    | nil => rfl
    | cons c rest ih => simp only [List.map_cons, payloadSize_cons, ih, AirSection.size, List.length_cons]; omega
  have hfew : (channelList.filter (captionEnabled c.captions ·)).length ≤ 4 := List.length_filter_le _ channelList
  simp only [Builder.buildClosing, AirFrame.payload, payloadSize_append, hclears]
  omega

/-! ## The rings (R76 to R86) -/

/-- A ring whose blocks are among those of a ring within its sizes. -/
theorem Ring.Bounded.of_sublist {r r' : Ring} (h : r.Bounded) (hl : r'.blocks.Sublist r.blocks) : r'.Bounded :=
  ⟨hl.length_le.trans h.blocks, fun b hb => h.usable b (hl.subset hb)⟩

theorem Ring.Bounded.of_blocks {r r' : Ring} (h : r.Bounded) (hl : r'.blocks = r.blocks) : r'.Bounded :=
  h.of_sublist (hl ▸ List.Sublist.refl _)

theorem Ring.bounded_of_empty {r : Ring} (h : r.blocks = []) : r.Bounded :=
  ⟨by simp [h], fun b hb => by rw [h] at hb; exact nomatch hb⟩

theorem dropFailed_suffix (l : List RingBlock) (take : Word) : (dropFailed l take).1 <:+ l := by
  induction l generalizing take with
  | nil => exact List.suffix_refl _
  | cons b rest ih =>
    unfold dropFailed
    split
    · exact (ih (take + 1)).trans (List.suffix_cons b rest)
    · exact List.suffix_refl _
    · exact List.suffix_refl _

theorem Ring.settle_blocks (r : Ring) : r.settle.blocks <:+ r.blocks := dropFailed_suffix r.blocks r.take

@[simp] theorem Ring.filler_blocks (r : Ring) (name : RingName) : (r.filler name).ring.blocks = r.blocks := by
  unfold Ring.filler
  split <;> rfl

theorem Ring.readAt_blocks (name : RingName) (x : Word) (l : List RingBlock) (r : Ring) :
    (Ring.readAt name x l r).ring.blocks <:+ l := by
  induction l generalizing r with
  | nil => simp [Ring.readAt]
  | cons b rest ih =>
    unfold Ring.readAt
    split
    · simp
    · exact (ih _).trans (List.suffix_cons b rest)
    · split
      · exact (ih _).trans (List.suffix_cons b rest)
      · split
        · exact List.suffix_refl _
        · unfold Ring.playSample
          simp only
          split
          · exact (Ring.settle_blocks _).trans (List.suffix_cons b rest)
          · exact List.suffix_refl _

theorem Ring.readRun_blocks (name : RingName) (n : Nat) (x : Word) (r : Ring) :
    (Ring.readRun name n x r).ring.blocks <:+ r.blocks := by
  induction n generalizing x r with
  | zero => exact List.suffix_refl _
  | succ n ih => exact (ih _ _).trans (Ring.readAt_blocks name x r.blocks r)

theorem Ring.Bounded.play {r : Ring} (h : r.Bounded) (name : RingName) (e : Word) : (r.play name e).1.Bounded := by
  have hstart : (if r.alignment e = .resync then r.resynced e else r).blocks.Sublist r.blocks := by
    split
    · exact (Ring.settle_blocks _).sublist.trans List.filter_sublist
    · exact List.Sublist.refl _
  exact h.of_sublist ((Ring.readRun_blocks name _ _ _).sublist.trans hstart)

theorem Ring.Bounded.playIf {r : Ring} (h : r.Bounded) (use : Bool) (name : RingName) (e : Word) :
    (r.playIf use name e).1.Bounded := by
  cases use
  · exact h
  · exact h.play name e

/-- R79: the block of a read, or a failed one, takes its place. -/
theorem Ring.Bounded.blockDone {r : Ring} (h : r.Bounded) (number : Word) {st : BlockState}
    (hst : ∀ blk, st = .held blk → blk.Usable) : (r.blockDone number st).Bounded := by
  have hplaced : Ring.Bounded { r with blocks := r.blocks.map fun b =>
      if b.number = number ∧ b.state = .reading then { b with state := st } else b } := by
    refine ⟨by simpa using h.blocks, fun b hb blk hheld => ?_⟩
    obtain ⟨b0, hb0, rfl⟩ := List.mem_map.mp hb
    split at hheld
    · exact hst blk hheld
    · exact h.usable b0 hb0 blk hheld
  exact hplaced.of_sublist (Ring.settle_blocks _).sublist

/-- R79: a ring that has room for one more read. -/
theorem Ring.Bounded.addReading {r : Ring} (h : r.Bounded) (hroom : r.blocks.length < 3) (number : Word) :
    (r.addReading number).Bounded := by
  refine ⟨by simp [Ring.addReading]; omega, fun b hb blk hheld => ?_⟩
  obtain hb | hb := List.mem_append.mp hb
  · exact h.usable b hb blk hheld
  · rw [List.mem_singleton.mp hb] at hheld
    exact nomatch hheld

theorem evenBelow_even (v : Word) : (evenBelow v).toNat % 2 = 0 := by
  have h : (evenBelow v).getLsbD 0 = false := by simp [evenBelow]
  rw [BitVec.getLsbD, Nat.testBit_zero] at h
  simpa using h

/-- R76: a block read from host memory is one the mixer can use. -/
theorem parseBlock_usable (d : List Byte) : (parseBlock d).Usable := by
  have hlength : (parseBlock d).samples.length
      = if (halfAt d 4).toNat = 0 then 240 else min (halfAt d 4).toNat 240 := by
    unfold parseBlock
    simp only
    split
    · exact List.length_replicate
    · rw [List.length_map, List.length_range]
  refine ⟨evenBelow_even _, ?_, ?_⟩ <;> rw [hlength] <;> split <;> omega

/-! ## The mixer (R78, R87 to R96) -/

theorem duck_le (m : MixSettings) (active : Bool) {g : Nat} (h : g ≤ 65535) : duck m active g ≤ 65535 := by
  have hd := m.gd.isLt
  have hb := m.gb.isLt
  unfold duck
  simp only
  split <;> split <;> (try split) <;> omega

theorem mixRun_gain_le (m : MixSettings) (ns bs : List Sample) {g : Nat} (h : g ≤ 65535) :
    (mixRun m ns bs g).1 ≤ 65535 := by
  induction ns generalizing bs g with
  | nil => simpa [mixRun] using h
  | cons n ns ih =>
    cases bs with
    | nil => simpa [mixRun] using h
    | cons b bs => exact ih bs (duck_le m n.active h)

section Mixers
variable {m : Mixer} (h : m.Bounded)
include h

theorem Mixer.Bounded.frame (mask : BitVec 2) (rec : BoundaryRecord) : (m.frame mask rec).1.Bounded := by
  unfold Mixer.frame
  split
  · refine { h with
      ringA := h.ringA.playIf _ _ _, ringB := h.ringB.playIf _ _ _, bed := h.bed.playIf _ _ _, gainA := ?_, gainB := ?_ } <;>
      (simp only [Mixer.playFrame]; split)
    · exact mixRun_gain_le _ _ _ h.gainA
    · exact h.gainA
    · exact mixRun_gain_le _ _ _ h.gainB
    · exact h.gainB
  · exact h

theorem Mixer.Bounded.mapRings {f : Ring → Ring} (hf : ∀ r : Ring, r.Bounded → (f r).Bounded) :
    (m.mapRings f).Bounded :=
  { h with ringA := hf _ h.ringA, ringB := hf _ h.ringB, bed := hf _ h.bed }

theorem Mixer.Bounded.ring (name : RingName) : (m.ring name).Bounded := by
  cases name
  · exact h.ringA
  · exact h.ringB
  · exact h.bed

theorem Mixer.Bounded.modRing (name : RingName) {f : Ring → Ring} (hf : (f (m.ring name)).Bounded) :
    (m.modRing name f).Bounded := by
  cases name
  · exact { h with ringA := hf }
  · exact { h with ringB := hf }
  · exact { h with bed := hf }

theorem Mixer.Bounded.markResync : m.markResync.Bounded := h.mapRings fun _ hr => hr.of_blocks rfl

theorem Mixer.Bounded.halt : m.halt.Bounded := by
  have hgb := m.settings.gb.isLt
  exact { h.mapRings (f := Ring.halt) fun _ _ => Ring.bounded_of_empty rfl with
    gainA := by simp only [Mixer.halt]; omega, gainB := by simp only [Mixer.halt]; omega }

theorem Mixer.Bounded.dark : m.dark.Bounded := h.halt.mapRings fun _ hr => hr.of_blocks rfl

theorem Mixer.Bounded.run : m.run.Bounded := { h.mapRings (f := fun r => { r with underruns := 0 })
  fun _ hr => hr.of_blocks rfl with }

theorem Mixer.Bounded.partChange : m.partChange.Bounded := h.mapRings fun _ _ => Ring.bounded_of_empty rfl

theorem Mixer.Bounded.becomeHalted : m.becomeHalted.Bounded :=
  { Mixer.bounded_initial with ringA := h.ringA, ringB := h.ringB, bed := h.bed }

theorem Mixer.Bounded.setFills (a b bed : Word) : (m.setFills a b bed).Bounded :=
  { h with ringA := h.ringA.of_blocks rfl, ringB := h.ringB.of_blocks rfl, bed := h.bed.of_blocks rfl }

/-- R91: the settings after their clamps. -/
theorem Mixer.Bounded.clampMix (gn gb gd attack release : Half) :
    ({ m with settings := Machine.clampMix gn gb gd attack release } : Mixer).Bounded := by
  have hone (v : Half) : 1 ≤ (if v = 0 then 1 else v).toNat := by
    split
    · decide
    · next hv => exact Nat.one_le_iff_ne_zero.mpr fun hz => hv (BitVec.eq_of_toNat_eq hz)
  refine { h with ducked := ?_, attack := hone attack, release := hone release }
  simp only [Machine.clampMix]
  split <;> omega

end Mixers

/-! ## The tag state (R167 to R171) -/

theorem tagFirstResult_sound {held : Bool} {listCount index : Nat} {t : TagState}
    (h : tagFirstResult held listCount index = .ok t) : t.Sound := by
  unfold tagFirstResult at h
  split at h
  · exact nomatch h
  · split at h
    · exact nomatch h
    · cases h
      trivial

theorem tagLastResult_sound {held : Bool} {listCount index : Nat} {t u : TagState}
    (h : tagLastResult held listCount index t = .ok u) : u.Sound := by
  unfold tagLastResult at h
  split at h
  · exact nomatch h
  · split at h
    · split at h
      · exact nomatch h
      · cases h
        exact ⟨by omega, by omega, Nat.zero_le _, List.nodup_nil, fun _ h => (nomatch h)⟩
    · exact nomatch h
    · exact nomatch h

theorem untagResult_sound {held : Bool} {index : Nat} {t u : TagState} (h : untagResult held index t = .ok u)
    (ht : t.Sound) : u.Sound := by
  unfold untagResult at h
  split at h
  · exact nomatch h
  · split at h
    · next first last untags =>
      obtain ⟨hle, hspan, hlength, hnodup, hrange⟩ := ht
      split at h
      · exact nomatch h
      · split at h
        · cases h
          exact ⟨hle, hspan, hlength, hnodup, hrange⟩
        · next hnew =>
          split at h
          · exact nomatch h
          · cases h
            refine ⟨hle, hspan, by simp; omega, ?_, fun i hi => ?_⟩
            · exact hnodup.append (List.nodup_singleton _) (by simpa using hnew)
            · obtain hi | hi := List.mem_append.mp hi
              · exact hrange i hi
              · rw [List.mem_singleton.mp hi]
                omega
    · exact nomatch h
    · exact nomatch h

end Sys2Proof.Machine
end

section
/-! SUPPORT. What each command leaves: the moves of every auditorium, and the queue of waiting commands. -/

namespace Sys2Proof.Machine

/-! ## Signals and the clock's answers (R14 to R31) -/

theorem State.works_signalBuilder (s : State) (k : Aud) : State.Works k s (s.signalBuilder k) := by
  unfold State.signalBuilder
  split
  · exact State.works_modAud .signal
  · exact .refl k s

theorem State.works_modMixer {s : State} {k : Aud} {f : Mixer → Mixer}
    (h : (s.aud k).mixer.Bounded → (f (s.aud k).mixer).Bounded) : State.Works k s (s.modMixer k f) :=
  State.works_modAud (.mixer _ h)

theorem State.works_modLink {s : State} {k : Aud} {f : Link → Link}
    (h : (s.aud k).link.Good k → (f (s.aud k).link).Good k) : State.Works k s (s.modLink k f) :=
  State.works_modAud (.link _ h)

theorem State.works_deliver {s : State} {k : Aud} (sig : Signal) (h : (s.aud k).clock.state ≠ .idle) :
    State.Works k s (s.deliver k sig) := by
  have hbefore : State.Works k s ((s.signalBuilder k).modMixer k Mixer.markResync) :=
    (s.works_signalBuilder k).trans (State.works_modMixer fun hm => hm.markResync)
  have hclock : (((s.signalBuilder k).modMixer k Mixer.markResync).aud k).clock = (s.aud k).clock := by
    rw [State.modMixer_def, State.aud_modAud_same, State.signalBuilder_aud]
  cases sig with
  | seat target =>
    exact hbefore.trans (State.works_seqStep (f := fun env q => q.seat env target)
      (.seat target (by rw [hclock]; exact h)))
  | clear => exact hbefore.trans (State.works_seqStep (f := fun env q => q.clearOrder env) .clearOrder)

theorem State.works_clockStep {s : State} {k : Aud} {x : ClockAnswer} (h : (s.aud k).clock.Answers x) :
    State.Works k s (s.clockStep k x) := by
  have hclock : State.Works k s (s.modClock k fun _ => x.clock) :=
    State.works_modAud (.clock _ h.within h.idle)
  have hreports := hclock.trans (State.works_reportAll _ k x.reports)
  unfold State.clockStep
  simp only
  split
  · exact hreports
  · next sig hsig =>
    refine hreports.trans (State.works_deliver sig ?_)
    rw [State.reportAll_aud, State.modClock_def, State.aud_modAud_same]
    exact h.signal (by rw [hsig]; exact fun h => nomatch h)

/-! ## Frame boundary and build point (R14 to R16, R79 to R90, R98, R113) -/

theorem State.works_snapshot (s : State) (k : Aud) : State.Works k s (s.snapshot k) := s.works_access k _ _ _ _ _

theorem State.works_boundarySnapshot (s : State) (k : Aud) : State.Works k s (s.boundarySnapshot k) := by
  unfold State.boundarySnapshot
  split
  · exact s.works_snapshot k
  · exact .refl k s

theorem State.works_showTimeUpdate (s : State) (k : Aud) : State.Works k s (s.showTimeUpdate k) := by
  unfold State.showTimeUpdate
  split
  · exact .refl k s
  · next h => exact State.works_seqStep (.update _ h)

theorem State.works_darkCheck (s : State) (k : Aud) : State.Works k s (s.darkCheck k) := by
  unfold State.darkCheck
  split
  · exact .refl k s
  · exact s.works_tableAccess k _ _ _ _ _ _

theorem State.works_boundaryFollow (s : State) (k : Aud) (first : Bool) :
    State.Works k s (s.boundaryFollow k first) := by
  have hhead : State.Works k s (s.readHead k) := s.works_access k _ _ _ _ _
  unfold State.boundaryFollow
  split
  · exact s.works_darkCheck k
  · split
    · exact (hhead.trans (State.works_boundarySnapshot _ k)).trans (State.works_showTimeUpdate _ k)
    · exact (hhead.trans (State.works_showTimeUpdate _ k)).trans (State.works_boundarySnapshot _ k)

theorem State.works_takeBoundary (s : State) (k : Aud) (first : Bool) : State.Works k s (s.takeBoundary k first) := by
  have hdue : State.Works k s (s.modAud k fun a => { a with boundaryDue := false }) :=
    State.works_modAud (.book _ _ _ _)
  have hclock := hdue.trans (State.works_clockStep (x := (s.aud k).clock.boundary s.houseTime)
    (by rw [State.aud_modAud_same]; exact Clock.answers_boundary _ _))
  unfold State.takeBoundary
  simp only
  split
  · exact hclock.trans (State.works_boundaryFollow _ k first)
  · exact hclock

theorem State.works_prefetchOne (s : State) (k : Aud) (name : RingName) : State.Works k s (s.prefetchOne k name) := by
  unfold State.prefetchOne
  simp only
  split
  · exact .refl k s
  · next number hwants =>
    have haccess := s.works_access k name.role (((s.aud k).mixer.ring name).offsetOf number) 512 []
      (.blockRead name ((s.aud k).mixer.ring name).fetchGen number)
    have haud := s.access_aud k name.role (((s.aud k).mixer.ring name).offsetOf number) 512 []
      (.blockRead name ((s.aud k).mixer.ring name).fetchGen number) k
    have hroom : ((s.aud k).mixer.ring name).blocks.length < 3 := by
      unfold Ring.wants at hwants
      split at hwants
      · next h => exact h.1
      · exact nomatch hwants
    split <;> (rename_i e; rw [e] at haccess haud)
    · refine haccess.trans (State.works_modMixer fun hm => hm.modRing name ?_)
      rw [haud]
      exact (Mixer.Bounded.ring (by rw [haud] at hm; exact hm) name).addReading hroom number
    · exact haccess

theorem State.works_prefetch (s : State) (k : Aud) (name : RingName) (use : Bool) :
    State.Works k s (s.prefetch k name use) := by
  unfold State.prefetch
  split
  · exact ((s.works_prefetchOne k name).trans (State.works_prefetchOne _ k name)).trans
      (State.works_prefetchOne _ k name)
  · exact .refl k s

theorem State.works_prefetchAll (s : State) (k : Aud) : State.Works k s (s.prefetchAll k) :=
  ((s.works_prefetch k .a _).trans (State.works_prefetch _ k .b _)).trans (State.works_prefetch _ k .bed _)

theorem State.works_mixFrame (s : State) (k : Aud) : State.Works k s (s.mixFrame k).1 :=
  (State.works_modMixer fun hm => hm.frame _ _).trans (State.works_reportAll _ k _)

theorem State.works_buildOrdinary (s : State) (k : Aud) {sections : List AirSection}
    (h : payloadSize sections ≤ 968) : State.Works k s (s.buildOrdinary k sections) := by
  have hfits := (s.aud k).builder.build_fits k (s.aud k).unit.channels (s.aud k).seq.active
    (s.aud k).clock.record h
  have hbuild : State.Works k s (s.modBuilder k fun _ => ((s.aud k).builder.build k (s.aud k).unit.channels
      (s.aud k).seq.active (s.aud k).clock.record sections).1) :=
    State.works_modAud (.build (s.aud k).clock.record sections)
  exact hbuild.trans (State.works_modLink (f := fun l => l.handoff ((s.aud k).builder.build k (s.aud k).unit.channels
    (s.aud k).seq.active (s.aud k).clock.record sections).2) fun hl => hl.handoff hfits)

theorem State.works_buildClosing (s : State) (k : Aud) {sections : List AirSection}
    (h : payloadSize sections ≤ 968) (hc : (s.aud k).unit.showState = .closing) :
    State.Works k s (s.buildClosing k sections) := by
  have hfits := (s.aud k).builder.buildClosing_fits k (s.aud k).unit.channels (s.aud k).clock.record h
  set link := (s.aud k).link.handoff
    ((s.aud k).builder.buildClosing k (s.aud k).unit.channels (s.aud k).clock.record sections).2
  have hlink : Auditorium.Move s.live k (s.aud k) { s.aud k with link := link } :=
    .link _ fun hl => Link.Good.handoff hl hfits
  have hclose := Auditorium.Move.close (live := s.live) (k := k) (a := { s.aud k with link := link })
    (s.aud k).clock.record sections hc
  have hmoves := (Relation.ReflTransGen.single hlink).tail hclose
  unfold State.buildClosing State.handOn
  simp only [State.modBuilder_def, State.modLink_def, State.modUnit_def, State.modAud_modAud]
  split
  · next hlast =>
    refine (s.onlyAud_modAud k _).works (.none rfl) ?_
    rw [State.aud_modAud_same]
    rw [if_pos hlast] at hmoves
    exact hmoves
  · next hmore =>
    refine (s.onlyAud_modAud k _).works (.none rfl) ?_
    rw [State.aud_modAud_same]
    rw [if_neg hmore, ← hc] at hmoves
    exact hmoves

theorem State.mixFrame_payload (s : State) (k : Aud) : payloadSize (s.mixFrame k).2 ≤ 968 :=
  Mixer.frame_payload _ _ _

theorem State.works_takeBuildPoint (s : State) (k : Aud) : State.Works k s (s.takeBuildPoint k) := by
  have hdue : State.Works k s (s.modAud k fun a => { a with buildDue := false }) :=
    State.works_modAud (.book _ _ _ _)
  have hmixed := hdue.trans (State.works_mixFrame _ k)
  have hshow : (((s.modAud k fun a => { a with buildDue := false }).mixFrame k).1.aud k).unit = (s.aud k).unit := by
    unfold State.mixFrame
    simp only
    rw [State.reportAll_aud, State.modMixer_def, State.aud_modAud_same, State.aud_modAud_same]
  unfold State.takeBuildPoint
  simp only
  split
  · split
    · exact (hmixed.trans (State.works_prefetchAll _ k)).trans
        (State.works_buildOrdinary _ k (State.mixFrame_payload _ k))
    · next hc => exact hmixed.trans (State.works_buildClosing _ k (State.mixFrame_payload _ k) (by rw [hshow, hc]))
    · exact hdue
    · exact hdue
  · exact hdue

/-! ## Claims and bindings (R136 to R138, R157) -/

theorem State.works_addBinding (s : State) (k : Aud) (role : Role) (selector : Byte) (d : Descriptor) :
    State.Works k s (s.addBinding k role selector d) := by
  have h : State.Works k s (s.modAud k fun a => { a with epochs := (s.aud k).epochs.raise role }) :=
    State.works_modAud (.book _ _ _ _)
  exact ⟨h.pending, h.partState, h.inFlight, h.others, h.moves⟩

/-- The batch after an operation that issues an access or reports. -/
theorem State.access_unit (s : State) (k : Aud) (role : Role) (offset length : Nat) (data : List Byte)
    (purpose : Purpose) : ((s.access k role offset length data purpose).1.aud k).unit = (s.aud k).unit := by
  rw [State.access_aud]

theorem State.works_settleHeader {s : State} {k : Aud} {count : Nat} (tagReset : Bool) (h : (s.aud k).BindsCues)
    (hn : count ≤ 65535) : State.Works k s (s.settleHeader k count tagReset) :=
  State.Works.trans (t := s.modSeq k _) (State.works_modAud (.list count h hn)) (State.works_decide _ k _ _)

theorem Auditorium.BindsCues.of_unit {a b : Auditorium} (h : a.BindsCues) (hu : b.unit = a.unit) : b.BindsCues := by
  unfold Auditorium.BindsCues
  rw [hu]
  exact h

theorem State.works_replyBind {s : State} {k : Aud} {role : Role} (limit : Word) (tagReset : Bool)
    (h : role = .cues → (s.aud k).BindsCues) : State.Works k s (s.replyBind k role limit tagReset) := by
  unfold State.replyBind
  split
  · next hrole =>
    have haccess := s.works_access k .cues 0 4 [] .headerRead
    have hbinds := (h hrole).of_unit (s.access_unit k .cues 0 4 [] .headerRead)
    split <;> (rename_i e; rw [e] at haccess hbinds)
    · exact haccess.trans (State.works_modAud (.count _ tagReset hbinds))
    · exact haccess.trans (State.works_settleHeader tagReset hbinds (Nat.zero_le _))
  · exact s.works_decide k _ _

theorem State.works_modRing {s : State} {k : Aud} {name : RingName} {f : Ring → Ring}
    (h : ∀ r : Ring, r.Bounded → (f r).Bounded) : State.Works k s (s.modMixer k fun m => m.modRing name f) :=
  State.works_modMixer fun hm => hm.modRing name (h _ (hm.ring name))

theorem State.works_modWriter (s : State) (k : Aud) (f : Writer → Writer) : State.Works k s (s.modWriter k f) :=
  State.works_modAud (.book _ _ _ _)

theorem State.works_modSeq {s : State} {k : Aud} {f : Sequencer → Sequencer}
    (h : Auditorium.Move s.live k (s.aud k) { s.aud k with seq := f (s.aud k).seq }) :
    State.Works k s (s.modSeq k f) := State.works_modAud h

theorem State.works_prepareRole {s : State} {k : Aud} {role : Role} (limit : Word)
    (h : role = .cues → (s.aud k).BindsCues) : State.Works k s (s.prepareRole k role limit) := by
  cases role with
  | showRecord => exact .refl k s
  | cues => exact State.works_modSeq (.newList (h rfl))
  | payload => exact .refl k s
  | narrationA => exact State.works_modRing fun _ _ => Ring.bounded_of_empty rfl
  | narrationB => exact State.works_modRing fun _ _ => Ring.bounded_of_empty rfl
  | bed => exact State.works_modRing fun _ _ => Ring.bounded_of_empty rfl
  | reports => exact s.works_modWriter k fun w => w.bindTo (reportCapacity limit)

theorem State.prepareRole_unit (s : State) (k : Aud) (role : Role) (limit : Word) :
    ((s.prepareRole k role limit).aud k).unit = (s.aud k).unit := by
  cases role <;> simp only [State.prepareRole, State.modSeq_def, State.modMixer_def, State.modWriter_def,
    State.aud_modAud_same]

theorem State.works_retireRole {s : State} {k : Aud} {role : Role}
    (h : role = .cues → (s.aud k).unit.showState = .halted) : State.Works k s (s.retireRole k role) := by
  cases role with
  | showRecord => exact .refl k s
  | cues =>
    exact State.works_modSeq (f := fun q => { q with listCount := 0 }) (.list 0 (.inl (h rfl)) (Nat.zero_le _))
  | payload => exact .refl k s
  | narrationA => exact State.works_modRing fun _ _ => Ring.bounded_of_empty rfl
  | narrationB => exact State.works_modRing fun _ _ => Ring.bounded_of_empty rfl
  | bed => exact State.works_modRing fun _ _ => Ring.bounded_of_empty rfl
  | reports => exact s.works_modWriter k Writer.unbind

/-- Waiting for one more access keeps a bind of CUES under way. -/
theorem State.await_bindsCues {s : State} {k : Aud} (awaited : Option Nat) (h : (s.aud k).BindsCues) :
    ((s.await k awaited).aud k).BindsCues := by
  unfold State.await
  rw [State.modUnit_def, State.aud_modAud_same]
  obtain h | ⟨b, tag, r, hb, hp⟩ | ⟨b, tag, selector, held, r, hb, hp⟩ := h
  · exact .inl h
  · exact .inr (.inl ⟨{ b with outstanding := b.outstanding ++ awaited.toList }, tag, r, by simp [hb], hp⟩)
  · exact .inr (.inr ⟨{ b with outstanding := b.outstanding ++ awaited.toList }, tag, selector, held, r,
      by simp [hb], hp⟩)

theorem State.works_makeBinding {s : State} {k : Aud} {role : Role} (selector : Byte) (d : Descriptor)
    (tagReset : Bool) (h : role = .cues → (s.aud k).BindsCues) :
    State.Works k s (s.makeBinding k role selector d tagReset) := by
  have hbytes := (s.works_addBinding k role selector d).trans
    (State.works_tableAccess _ k role selector 14 2 (boundBytes role k) .bindingWrite)
  have hwait := hbytes.trans (State.works_await _ k (some (s.addBinding k role selector d).nextTag))
  have hunit : (((s.addBinding k role selector d).writeBindingBytes (some k) role selector (boundBytes role k)
      .bindingWrite).aud k).unit = (s.aud k).unit := by
    change ((s.modAud k fun a => { a with epochs := (s.aud k).epochs.raise role }).aud k).unit = _
    rw [State.aud_modAud_same]
  have hbinds (hr : role = .cues) := State.await_bindsCues (some (s.addBinding k role selector d).nextTag)
    ((h hr).of_unit hunit)
  exact (hwait.trans (State.works_prepareRole d.limit hbinds)).trans
    (State.works_replyBind d.limit tagReset fun hr => (hbinds hr).of_unit (State.prepareRole_unit _ k role d.limit))

/-- R136: what a claim's descriptor read leaves, with the batch still waiting for it. -/
theorem State.works_claimRead (s : State) (k : Aud) (tag : Nat) (bytes : List Byte) :
    State.Works k s (s.claimRead k tag bytes) := by
  unfold State.claimRead
  split
  · next t role selector held allowed tagReset hphase =>
    split
    · simp only
      split
      · exact (s.works_report k _).trans (State.works_decide _ k _ _)
      · unfold State.mapStep
        split
        · exact s.works_decide k _ _
        · split
          · exact s.works_decide k _ _
          · next hallowed =>
            refine State.works_makeBinding _ _ _ fun hrole => .inr (.inr ?_)
            obtain ⟨b, hb, hp⟩ := Option.map_eq_some_iff.mp hphase
            have hyes : allowed = true := by simp at hallowed; exact hallowed.2
            exact ⟨b, t, selector, held, tagReset, hb, by rw [hp, hrole, hyes]⟩
    · exact .refl k s
  · exact .refl k s

theorem State.works_claimFailed (s : State) (k : Aud) (tag : Nat) : State.Works k s (s.claimFailed k tag) := by
  unfold State.claimFailed
  split
  · split
    · exact s.works_decide k _ _
    · exact .refl k s
  · exact .refl k s

theorem listCountOf_le (header limit : Word) : listCountOf header limit ≤ 65535 := Nat.min_le_right _ _

theorem State.works_headerEnded (s : State) (k : Aud) (tag : Nat) {count : Nat} (h : count ≤ 65535) :
    State.Works k s (s.headerEnded k tag count) := by
  unfold State.headerEnded
  split
  · next t tagReset hphase =>
    obtain ⟨b, hb, hp⟩ := Option.map_eq_some_iff.mp hphase
    split
    · exact State.works_settleHeader tagReset (.inr (.inl ⟨b, t, tagReset, hb, hp⟩)) h
    · exact .refl k s
  · exact .refl k s

/-! ## The show record and the DARK check (R145 to R152) -/

theorem State.bindShow_unit (s : State) (k : Aud) (selector : Byte) (d : Descriptor) (owner : Option Aud)
    (purpose : Purpose) : ((s.bindShow k selector d owner purpose).aud k).unit = (s.aud k).unit := by
  change ((s.modAud k fun a => { a with epochs := (s.aud k).epochs.raise .showRecord }).aud k).unit = _
  rw [State.aud_modAud_same]

theorem State.works_darkCheckRead (s : State) (k : Aud) (selector : Byte) (d : Descriptor) :
    State.Works k s (s.darkCheckRead k selector d) := by
  unfold State.darkCheckRead
  split
  · next h =>
    refine ((s.works_addBinding k .showRecord selector d).trans (State.works_tableAccess _ k _ _ _ _ _ _)).trans
      (State.works_modAud (.becomeHalted (.inr ?_)))
    exact (congrArg DirectiveUnit.showState (s.bindShow_unit k selector d (some k) .bindingWrite)).trans h.1
  · exact .refl k s

theorem State.works_handHead (s : State) (k : Aud) (d : List Byte) : State.Works k s (s.handHead k d) :=
  (State.works_modMixer fun hm => hm.setFills _ _ _).trans (State.works_modWriter _ k _)

theorem State.works_headRead (s : State) (k : Aud) (tag : Nat) (d : List Byte) :
    State.Works k s (s.headRead k tag d) := by
  have hhead := s.works_handHead k d
  unfold State.headRead
  simp only
  split
  · exact hhead.trans ((State.works_modUnit rfl rfl rfl (by exact Batch.follows_refl _)).trans
      (State.works_snapshot _ k))
  · split
    · exact hhead
    · split
      · exact hhead
      · split
        · exact hhead
        · exact hhead.trans ((State.works_modUnit rfl rfl rfl (Batch.follows_free _ (by trivial))).trans
            (State.works_access _ k _ _ _ _ _))

theorem State.works_slotsRead (s : State) (k : Aud) (d : List Byte) : State.Works k s (s.slotsRead k d) := by
  unfold State.slotsRead
  split
  · exact .refl k s
  · next b hb =>
    split
    · refine (State.works_modUnit rfl rfl rfl ?_).trans (State.works_comeToSlot _ k 0)
      rw [hb]
      exact fun y hy => by cases hy; exact .inr ⟨b, rfl, rfl⟩
    · exact .refl k s

/-! ## Reads that complete, and memory errors (R141, R143, R148) -/

theorem State.works_if_seqStep {s : State} {k : Aud} {P : Prop} [Decidable P]
    {f : SeqEnv → Sequencer → Sequencer × List SeqOut}
    (h : Sequencer.Does (s.aud k) (s.seqEnv k) (f (s.seqEnv k) (s.aud k).seq)) :
    State.Works k s (if P then s.seqStep k f else s) := by
  split
  · exact State.works_seqStep h
  · exact .refl k s

theorem State.works_blockRead (s : State) (k : Aud) (name : RingName) (gen : Nat) (number : Word) {st : BlockState}
    (h : ∀ blk, st = .held blk → blk.Usable) : State.Works k s (s.blockRead k name gen number st) := by
  unfold State.blockRead
  split
  · exact State.works_modRing fun r hr => hr.blockDone number h
  · exact .refl k s

theorem State.works_readDone {s : State} {a : Access} {k : Aud} (ha : a.aud = some k) (d : List Byte) :
    State.Works k s (s.readDone a d) := by
  unfold State.readDone
  simp only [ha]
  split
  · exact s.works_claimRead k _ d
  · exact s.works_darkCheckRead k _ _
  · split
    · split
      · exact State.works_if_seqStep (.entry _ _)
      · exact State.works_if_seqStep (.text _ d)
      · exact State.works_if_seqStep (.scan _ _)
      · exact State.works_if_seqStep (.lookback _ _)
      · exact s.works_blockRead k _ _ _ fun blk h => by cases h; exact parseBlock_usable d
      · split
        · exact .refl k s
        · exact s.works_headerEnded k _ (listCountOf_le _ _)
      · exact s.works_headRead k _ d
      · exact s.works_slotsRead k d
      · exact .refl k s
    · exact .refl k s

theorem State.works_memoryFault {s : State} {a : Access} {k : Aud} (ha : a.aud = some k) :
    State.Works k s (s.memoryFault a) := by
  unfold State.memoryFault
  simp only [ha]
  split
  · exact .refl k s
  · exact s.works_missReport k
  · exact s.works_report k _

theorem State.works_becomeDark (s : State) (k : Aud) : State.Works k s (s.becomeDark k) := by
  have habandon : State.Works k s { s with
      inFlight := s.inFlight.map fun a => if a.ofBatch k then { a with live := false } else a } :=
    State.works_of_auds k rfl rfl (fun _ => rfl) fun a ha => by
      obtain ⟨b, hb, rfl⟩ := List.mem_map.mp ha
      exact .inr ⟨b, hb, by split <;> rfl⟩
  have hunbind (u : State) : State.Works k u (u.unbindAud k) :=
    State.works_of_auds k rfl rfl (fun _ => rfl) fun a ha => .inr ⟨a, ha, rfl⟩
  exact ((habandon.trans (hunbind _)).trans (State.works_modAud .becomeDark)).trans (State.works_setHouseFault _ k)

theorem State.works_showFailed (s : State) (k : Aud) (a : Access) : State.Works k s (s.showFailed k a) := by
  unfold State.showFailed
  split
  · exact s.works_becomeDark k
  · exact .refl k s

/-- R65, R69: out of its phase a failed scan or lookback read changes nothing. -/
theorem State.works_seqFailed_or {s : State} {k : Aud} (a : Access) (gen : Nat)
    {f : SeqEnv → Sequencer → Sequencer × List SeqOut}
    (h : Sequencer.Does (s.aud k) (s.seqEnv k) (f (s.seqEnv k) (s.aud k).seq)
      ∨ f (s.seqEnv k) (s.aud k).seq = ((s.aud k).seq, [])) : State.Works k s (s.seqFailed k a gen f) := by
  unfold State.seqFailed
  obtain h | h := h
  · exact State.works_if_seqStep h
  · have hsame : s.seqStep k f = s := by
      unfold State.seqStep
      simp only [h]
      exact s.modAud_id k
    rw [hsame, ite_self]
    exact .refl k s

theorem Sequencer.scanFailed_cases (q : Sequencer) (env : SeqEnv) (i : Nat) :
    q.scanFailed env i = q.faultAt env i ∨ q.scanFailed env i = (q, []) := by
  unfold Sequencer.scanFailed
  split
  · exact .inr rfl
  · split
    · exact .inl rfl
    · exact .inr rfl

theorem Sequencer.lookbackFailed_cases (q : Sequencer) (env : SeqEnv) (i : Nat) :
    q.lookbackFailed env i = q.faultAt env i ∨ q.lookbackFailed env i = (q, []) := by
  unfold Sequencer.lookbackFailed
  split
  · exact .inr rfl
  · split
    · exact .inl rfl
    · exact .inr rfl

theorem State.works_blockFailed (s : State) (k : Aud) (a : Access) : State.Works k s (s.blockFailed k a) := by
  unfold State.blockFailed
  split
  · exact State.works_seqFailed_or a _ (.inl (.fault _))
  · exact State.works_seqFailed_or a _ (.inl (.textFails _))
  · exact State.works_seqFailed_or a _ ((Sequencer.scanFailed_cases _ _ _).imp_left fun h => by rw [h]; exact .fault _)
  · exact State.works_seqFailed_or a _
      ((Sequencer.lookbackFailed_cases _ _ _).imp_left fun h => by rw [h]; exact .fault _)
  · split
    · exact s.works_blockRead k _ _ _ fun blk h => nomatch h
    · exact .refl k s
  · split
    · exact s.works_headerEnded k _ (Nat.zero_le _)
    · exact .refl k s
  · exact s.works_showFailed k a
  · exact s.works_showFailed k a
  · exact s.works_claimFailed k _
  · exact .refl k s
  · exact s.works_setHouseFault k
  · exact s.works_showFailed k a
  · exact s.works_showFailed k a
  · exact s.works_showFailed k a
  · exact s.works_batchDone k _
  · exact .refl k s
  · exact s.works_batchDone k _
  · exact .refl k s

theorem State.works_accessFailed {s : State} {a : Access} {k : Aud} (ha : a.aud = some k) :
    State.Works k s (s.accessFailed a) := by
  unfold State.accessFailed
  simp only [ha]
  exact (State.works_memoryFault ha).trans (State.works_blockFailed _ k a)

theorem State.works_acknowledged (s : State) (k : Aud) : State.Works k s (s.acknowledged k) :=
  (State.works_modUnit rfl rfl rfl (by exact Batch.follows_none _)).trans (State.works_setNotice _ k)

theorem State.works_writeDone {s : State} {a : Access} {k : Aud} (ha : a.aud = some k) :
    State.Works k s (s.writeDone a) := by
  unfold State.writeDone
  simp only [ha]
  split
  · exact s.works_batchDone k _
  · exact s.works_batchDone k _
  · exact s.works_batchDone k _
  · split
    · exact s.works_acknowledged k
    · exact .refl k s
  · exact s.works_setNotice k
  · exact .refl k s

/-! ## Directives (R157 to R175) -/

theorem State.ready_some {s : State} {k : Aud} {c : Instr} (h : s.ready k = some c) :
    s.live = true ∧ (s.aud k).unit.showState ≠ .dark := by
  unfold State.ready at h
  split at h
  · next hr => exact ⟨by simp [State.live, hr.1], hr.2⟩
  · exact nomatch h

/-- A directive is taken of a batch that waits for no claim and no header (R152). -/
theorem State.ready_free {s : State} {k : Aud} {c : Instr} (h : s.ready k = some c) :
    ∀ b, (s.aud k).unit.batch = some b → b.phase.isFree := by
  intro b hb
  unfold State.ready at h
  rw [hb] at h
  split at h
  · simp only at h
    split at h
    · next htaking => rw [htaking]; trivial
    · exact nomatch h
  · exact nomatch h

theorem State.works_taking {s : State} {k : Aud} {c : Instr} {f : State → State}
    (h : s.ready k = some c → State.Works k s (f s)) : State.Works k s (s.taking k c f) := by
  unfold State.taking
  split
  · next hready => exact h hready
  · exact .refl k s

theorem State.works_claim (s : State) (k : Aud) (role : Role) (selector : Byte) :
    State.Works k s (s.claim k role selector) := by
  have hshow : s.show k = ((s.emptyTag k).aud k).unit.showState := by
    unfold State.show State.emptyTag
    rw [State.modUnit_def, State.aud_modAud_same]
  unfold State.claim
  simp only [hshow]
  exact ((s.works_emptyTag k).trans (State.works_modAud (.claim _ role selector _ _))).trans
    (State.works_tableAccess _ k _ _ _ _ _ _)

theorem State.works_doBind (s : State) (k : Aud) (role selector : Byte) :
    State.Works k s (s.doBind k role selector) := by
  unfold State.doBind
  split
  · exact s.works_settle k _
  · split
    · exact s.works_claim k _ _
    · exact s.works_settle k _

theorem State.works_unbindRole (s : State) (k : Aud) (role : Role) : State.Works k s (s.unbindRole k role) :=
  State.works_of_auds k rfl rfl (fun _ => rfl) fun a ha => .inr ⟨a, ha, rfl⟩

theorem State.works_releaseBinding {s : State} {k : Aud} {role : Role} (b : Binding)
    (h : role = .cues → (s.aud k).unit.showState = .halted) : State.Works k s (s.releaseBinding k role b) := by
  have hbytes := (s.works_unbindRole k role).trans
    (State.works_tableAccess _ k role b.selector 14 2 clearedBytes .bindingWrite)
  have hwait := hbytes.trans (State.works_await _ k (some (s.unbindRole k role).nextTag))
  refine (hwait.trans (State.works_retireRole fun hr => ?_)).trans (State.works_settle _ k 0)
  unfold State.await
  rw [State.modUnit_def, State.aud_modAud_same]
  exact h hr

theorem State.works_doRelease (s : State) (k : Aud) (role : Byte) : State.Works k s (s.doRelease k role) := by
  unfold State.doRelease
  split
  · exact s.works_settle k _
  · split
    · exact s.works_settle k _
    · split
      · next hallowed =>
        exact State.works_releaseBinding _ fun hr => by simpa [releaseAllowed, hr, State.show] using hallowed
      · exact s.works_settle k _

theorem State.works_doRun {s : State} {k : Aud} {c : Instr} (h : s.ready k = some c) :
    State.Works k s (s.doRun k) := by
  obtain ⟨hlive, hlit⟩ := State.ready_some h
  unfold State.doRun
  split
  · exact s.works_settle k _
  · next hrefusal =>
    refine (State.works_modAud (.run hlive ?_ (State.ready_free h))).trans (State.works_settle _ k 0)
    unfold State.runRefusal State.show at hrefusal
    cases hs : (s.aud k).unit.showState with
    | dark => exact absurd hs hlit
    | halted => rfl
    | running => simp [hs] at hrefusal
    | closing => simp [hs] at hrefusal

theorem Sequencer.clearOrder_listCount (q : Sequencer) (env : SeqEnv) :
    (q.clearOrder env).1.listCount = q.listCount := by
  unfold Sequencer.clearOrder
  split <;> rfl

/-- R33, R60, R95, R110, R113, R160: the blocks as a HALT leaves them. -/
theorem State.haltShow_halts (s : State) (k : Aud) : (s.aud k).Halts ((s.haltShow k).aud k) := by
  have hdeaf (a : Auditorium) (live : Bool) (h : a.unit.showState = .closing) : a.takes live = false := by
    simp [Auditorium.takes, h]
  unfold State.haltShow
  simp only [State.modMixer_def, State.aud_modAud_same]
  rw [State.seqStep_told]
  by_cases hi : (s.aud k).clock.state = .idle
  · have hidle : (s.aud k).clock.toIdle = ((s.aud k).clock, false) := by simp [Clock.toIdle, hi]
    simp only [hidle, Bool.false_eq_true, if_false, State.aud_modAud_same, Auditorium.told, Sequencer.halt]
    rw [hdeaf _ _ rfl]
    exact ⟨.inr rfl, hi, ⟨_, rfl, rfl⟩, .inl rfl, rfl, rfl, rfl, rfl⟩
  · have hidle : (s.aud k).clock.toIdle = ((s.aud k).clock.cleared, true) := by simp [Clock.toIdle, hi]
    simp only [hidle, if_true]
    set s1 := s.modAud k fun a => { a with
      clock := (s.aud k).clock.cleared, builder := a.builder.halt a.unit.channels.copies
      unit := { a.unit with showState := .closing } } with hs1
    have h1 : s1.aud k = { s.aud k with
        clock := (s.aud k).clock.cleared, builder := (s.aud k).builder.halt (s.aud k).unit.channels.copies
        unit := { (s.aud k).unit with showState := .closing } } := State.aud_modAud_same _ _ _
    have hsignal : (s1.signalBuilder k).aud k = s1.aud k := by
      unfold State.signalBuilder
      split
      · rw [State.modBuilder_def, State.aud_modAud_same, h1]
        rfl
      · rfl
    have h2 : (s1.deliver k .clear).aud k = { s1.aud k with
        mixer := (s1.aud k).mixer.markResync
        seq := ((s1.aud k).seq.clearOrder (s1.seqEnv k)).1
        writer := ((s1.deliver k .clear).aud k).writer } := by
      have henv : ((s1.signalBuilder k).modMixer k Mixer.markResync).seqEnv k = s1.seqEnv k := by
        unfold State.seqEnv State.holdsRole State.binding
        rw [State.modMixer_def, State.aud_modAud_same, hsignal, State.modAud_bindings,
          (s1.onlyAud_signalBuilder k).bindings]
      conv_lhs => unfold State.deliver
      simp only
      rw [State.seqStep_told, henv, State.modMixer_def, State.aud_modAud_same, hsignal]
      unfold Auditorium.told
      rw [hdeaf _ _ (by rw [h1])]
      rfl
    rw [h2, h1]
    simp only [Auditorium.told, Sequencer.halt]
    rw [hdeaf _ _ rfl]
    exact ⟨.inl rfl, rfl, ⟨_, rfl, Sequencer.clearOrder_listCount _ _⟩, .inr rfl, rfl, rfl, rfl, rfl⟩

theorem State.onlyAud_haltShow (s : State) (k : Aud) : State.OnlyAud k s (s.haltShow k) := by
  unfold State.haltShow
  simp only
  split
  · exact (((s.onlyAud_modAud k _).trans (State.onlyAud_deliver _ k _)).trans (State.onlyAud_seqStep _ k _)).trans
      (State.onlyAud_modAud _ k _)
  · exact ((s.onlyAud_modAud k _).trans (State.onlyAud_seqStep _ k _)).trans (State.onlyAud_modAud _ k _)

theorem State.adds_seqStep (s : State) (k : Aud) (f : SeqEnv → Sequencer → Sequencer × List SeqOut) :
    State.Adds k s (s.seqStep k f) := State.Adds.trans (.none rfl) (State.adds_seqSendAll _ k _)

theorem State.adds_deliver (s : State) (k : Aud) (sig : Signal) : State.Adds k s (s.deliver k sig) := by
  have hbefore : State.Adds k s ((s.signalBuilder k).modMixer k Mixer.markResync) := by
    refine .none ?_
    unfold State.signalBuilder
    split <;> rfl
  cases sig
  · exact hbefore.trans (State.adds_seqStep _ k _)
  · exact hbefore.trans (State.adds_seqStep _ k _)

theorem State.adds_modAud (s : State) (k : Aud) (f : Auditorium → Auditorium) : State.Adds k s (s.modAud k f) :=
  .none rfl

theorem State.adds_haltShow (s : State) (k : Aud) : State.Adds k s (s.haltShow k) := by
  unfold State.haltShow
  simp only
  split
  · exact (((s.adds_modAud k _).trans (State.adds_deliver _ k .clear)).trans (State.adds_seqStep _ k _)).trans
      (State.adds_modAud _ k _)
  · exact ((s.adds_modAud k _).trans (State.adds_seqStep _ k _)).trans (State.adds_modAud _ k _)

theorem State.works_doHalt (s : State) (k : Aud) : State.Works k s (s.doHalt k) := by
  unfold State.doHalt
  split
  · next hshow =>
    exact ((s.onlyAud_haltShow k).works (s.adds_haltShow k)
      (.single (.halt _ hshow (s.haltShow_halts k)))).trans (State.works_settle _ k 0)
  · exact s.works_settle k 0

theorem State.works_doSetChannels (s : State) (k : Aud) {settings : Option ChannelSettings}
    (h : ∀ c, settings = some c → c.Within) : State.Works k s (s.doSetChannels k settings) := by
  unfold State.doSetChannels
  split
  · exact s.works_settle k _
  · next c =>
    split
    · exact s.works_settle k _
    · exact State.Works.trans (t := s.modUnit k _) (State.works_modAud (.channels c (h c rfl)))
        (State.works_settle _ k 0)

theorem channelsOf_within {captions narration copies refresh check address : Byte} {c : ChannelSettings}
    (h : channelsOf captions narration copies refresh check address = some c) : c.Within := by
  rw [channelsOf_eq] at h
  split at h
  · next hin =>
    cases h
    exact ⟨hin.2.2.1, by dsimp only; omega⟩
  · exact nomatch h

theorem State.works_doSetLoop (s : State) (k : Aud) {settings : Option LoopSettings}
    (h : ∀ l, settings = some l → l.Within) : State.Works k s (s.doSetLoop k settings) := by
  unfold State.doSetLoop
  split
  · exact s.works_settle k _
  · next l =>
    exact State.Works.trans (t := s.modClock k _)
      (State.works_modAud (.clock _ (fun hc => hc.setLoop (h l rfl)) Iff.rfl)) (State.works_settle _ k 0)

theorem State.works_doSetMix (s : State) (k : Aud) (gn gb gd attack release : Half) :
    State.Works k s (s.doSetMix k (clampMix gn gb gd attack release)) := by
  have hmix : State.Works k s (s.modMixer k fun x => { x with settings := clampMix gn gb gd attack release }) :=
    State.works_modMixer fun hm => hm.clampMix gn gb gd attack release
  exact hmix.trans (State.works_settle _ k 0)

theorem State.works_settleTagResult (s : State) (k : Aud) {r : Except Byte TagState}
    (h : ∀ t, r = .ok t → (s.aud k).unit.tag.Sound → t.Sound) : State.Works k s (s.settleTagResult k r) := by
  unfold State.settleTagResult
  split
  · exact s.works_decide k _ _
  · next t => exact (State.works_setTag (h t rfl)).trans (State.works_decide _ k _ _)

theorem State.works_writeFlag (s : State) (k : Aud) (i : Nat) : State.Works k s (s.writeFlag k i) :=
  (s.works_access k _ _ _ _ _).trans (State.works_await _ k _)

theorem State.works_retractOne (s : State) (k : Aud) (i : Nat) (j : Judgement) :
    State.Works k s (s.retractOne k i j) := by
  cases j with
  | active c cue => exact (State.works_seqStep (.retract c cue)).trans (State.works_writeFlag _ k i)
  | past => exact .refl k s
  | staged =>
    have hmark : State.Works k s (s.modSeq k fun q => { q with window := q.window.map (markSlot i) }) :=
      State.works_seqStep (f := fun _ q => ({ q with window := q.window.map (markSlot i) }, [])) (.mark i)
    exact hmark.trans (State.works_writeFlag _ k i)
  | ahead => exact s.works_writeFlag k i

theorem State.works_retractAll (s : State) (k : Aud) (l : List (Nat × Judgement)) :
    State.Works k s (s.retractAll k l) := by
  have hall (u : State) : State.Works k u (l.foldl (fun s x => s.retractOne k x.1 x.2) u) := by
    induction l generalizing u with
    | nil => exact .refl k u
    | cons x rest ih => exact (u.works_retractOne k x.1 x.2).trans (ih _)
  exact ((hall s).trans (State.works_setTag (t := .empty) fun _ => trivial)).trans (State.works_decide _ k _ _)

theorem State.works_doRetract (s : State) (k : Aud) : State.Works k s (s.doRetract k) := by
  unfold State.doRetract
  split
  · exact s.works_decide k _ _
  · split
    · split
      · exact s.works_decide k _ _
      · exact s.works_retractAll k _
    · exact s.works_decide k _ _
    · exact s.works_decide k _ _

/-! ## Timecode (R1 to R9) -/

theorem State.works_takeByte (s : State) (k : Aud) (b : Byte) : State.Works k s (s.takeByte k b) := by
  have hreceiver : State.Works k s (s.modReceiver k fun _ =>
      ((s.aud k).receiver.take s.houseTime b (s.aud k).clock.loop.trim).1) :=
    State.works_modAud (.receiver _ fun h => h.take _ _ _)
  unfold State.takeByte
  simp only
  split
  · exact hreceiver
  · exact hreceiver.trans (State.works_clockStep (Clock.answers_report _ _))

end Sys2Proof.Machine
end

section
/-! SUPPORT. What every command leaves: a next state, its queue, and moves of the auditoriums. -/

namespace Sys2Proof.Machine

/-! ## The other fields after `mapAuds` -/

section MapAuds
variable (s : State) (f : Aud → Auditorium → Auditorium)

@[simp] theorem State.mapAuds_pending : (s.mapAuds f).pending = s.pending := by simp only [State.mapAuds]
@[simp] theorem State.mapAuds_partState : (s.mapAuds f).partState = s.partState := by simp only [State.mapAuds]
@[simp] theorem State.mapAuds_noticeEn : (s.mapAuds f).noticeEn = s.noticeEn := by simp only [State.mapAuds]
@[simp] theorem State.mapAuds_notice : (s.mapAuds f).notice = s.notice := by simp only [State.mapAuds]
@[simp] theorem State.mapAuds_houseFault : (s.mapAuds f).houseFault = s.houseFault := by simp only [State.mapAuds]
@[simp] theorem State.mapAuds_tableBaseLo : (s.mapAuds f).tableBaseLo = s.tableBaseLo := by simp only [State.mapAuds]
@[simp] theorem State.mapAuds_tableBaseHi : (s.mapAuds f).tableBaseHi = s.tableBaseHi := by simp only [State.mapAuds]
@[simp] theorem State.mapAuds_tableCount : (s.mapAuds f).tableCount = s.tableCount := by simp only [State.mapAuds]
@[simp] theorem State.mapAuds_houseTime : (s.mapAuds f).houseTime = s.houseTime := by simp only [State.mapAuds]
@[simp] theorem State.mapAuds_framePhase : (s.mapAuds f).framePhase = s.framePhase := by simp only [State.mapAuds]
@[simp] theorem State.mapAuds_latchedBase : (s.mapAuds f).latchedBase = s.latchedBase := by simp only [State.mapAuds]
@[simp] theorem State.mapAuds_latchedCount : (s.mapAuds f).latchedCount = s.latchedCount := by simp only [State.mapAuds]
@[simp] theorem State.mapAuds_bindings : (s.mapAuds f).bindings = s.bindings := by simp only [State.mapAuds]
@[simp] theorem State.mapAuds_inFlight : (s.mapAuds f).inFlight = s.inFlight := by simp only [State.mapAuds]
@[simp] theorem State.mapAuds_nextTag : (s.mapAuds f).nextTag = s.nextTag := by simp only [State.mapAuds]
@[simp] theorem State.mapAuds_messages : (s.mapAuds f).messages = s.messages := by simp only [State.mapAuds]
@[simp] theorem State.mapAuds_readValue : (s.mapAuds f).readValue = s.readValue := by simp only [State.mapAuds]

end MapAuds

/-! ## How a state evolves -/

/-- From `s` to `t` the queue of waiting commands stays and the blocks of every auditorium move. -/
structure State.Evolves (s t : State) : Prop where
  pending : t.pending = s.pending
  moves : ∀ k, Auditorium.Moves s.live k (s.aud k) (t.aud k)

theorem State.evolves_of_auds {s t : State} (hpending : t.pending = s.pending) (hauds : ∀ k, t.aud k = s.aud k) :
    State.Evolves s t :=
  ⟨hpending, fun k => by rw [hauds]⟩

theorem State.Evolves.refl (s : State) : State.Evolves s s := State.evolves_of_auds rfl fun _ => rfl

theorem State.Evolves.trans {s t u : State} (h : State.Evolves s t) (hpart : t.partState = s.partState)
    (g : State.Evolves t u) : State.Evolves s u where
  pending := g.pending.trans h.pending
  moves := fun k => by
    have hlive : t.live = s.live := by unfold State.live; rw [hpart]
    exact (h.moves k).trans (hlive ▸ g.moves k)

theorem State.Works.evolves {k : Aud} {s t : State} (h : State.Works k s t) : State.Evolves s t where
  pending := h.pending
  moves := fun j => by
    by_cases hj : j = k
    · rw [hj]
      exact h.moves
    · rw [h.others j hj]

/-- Only the auditoriums say what the blocks of one are. -/
theorem State.aud_of_auds {s t : State} (h : t.auds = s.auds) (k : Aud) : t.aud k = s.aud k := by
  unfold State.aud
  rw [h]

theorem State.evolves_mapAuds {s t : State} (f : Aud → Auditorium → Auditorium) (hpending : t.pending = s.pending)
    (hauds : t.auds = (s.mapAuds f).auds) (h : ∀ k a, Auditorium.Moves s.live k a (f k a)) : State.Evolves s t :=
  ⟨hpending, fun k => by rw [State.aud_of_auds hauds, State.aud_mapAuds]; exact h k _⟩

/-! ## Start, stop and reset (R182 to R186) -/

theorem State.evolves_settleStop (s : State) : State.Evolves s s.settleStop :=
  State.evolves_of_auds s.settleStop_pending s.settleStop_aud

theorem State.evolves_powerOn (s : State) : State.Evolves s s.powerOn :=
  ⟨rfl, fun k => by
    have h : (State.reset.aud k) = Auditorium.initial k := State.aud_reset k
    exact h ▸ .single .reset⟩

theorem State.evolves_softReset (s : State) : State.Evolves s s.softReset :=
  ⟨rfl, fun k => by
    have h : (State.reset.aud k) = Auditorium.initial k := State.aud_reset k
    exact h ▸ .single .reset⟩

/-- The reads of the start-up scan change nothing but what is in flight, and belong to no auditorium (R145). -/
theorem State.readDescriptors_spec (l : List Nat) (s : State) :
    let t := l.foldl (fun s i => s.readDescriptor none .showRecord (BitVec.ofNat 8 i) .startScanRead) s
    t.pending = s.pending ∧ t.partState = s.partState ∧ t.bindings = s.bindings ∧ (∀ k, t.aud k = s.aud k)
      ∧ ∀ a ∈ t.inFlight, a ∈ s.inFlight ∨ a.aud = none := by
  induction l generalizing s with
  | nil => exact ⟨rfl, rfl, rfl, fun _ => rfl, fun _ ha => .inl ha⟩
  | cons i rest ih =>
    obtain ⟨hpending, hpart, hbindings, hauds, hinFlight⟩ :=
      ih (s.readDescriptor none .showRecord (BitVec.ofNat 8 i) .startScanRead)
    refine ⟨hpending, hpart, hbindings, hauds, fun a ha => ?_⟩
    obtain ha | ha := hinFlight a ha
    · obtain ha | ha := List.mem_append.mp ha
      · exact .inl ha
      · exact .inr (by rw [List.mem_singleton.mp ha])
    · exact .inr ha

theorem State.readAllDescriptors_spec (s : State) :
    s.readAllDescriptors.pending = s.pending ∧ s.readAllDescriptors.partState = s.partState
      ∧ s.readAllDescriptors.bindings = s.bindings ∧ (∀ k, s.readAllDescriptors.aud k = s.aud k)
      ∧ ∀ a ∈ s.readAllDescriptors.inFlight, a ∈ s.inFlight ∨ a.aud = none :=
  State.readDescriptors_spec _ s

/-- R182: the part as a start leaves it, its reads not yet issued. -/
def State.started (s : State) : State :=
  { s.mapAuds (fun _ a => a.partStart) with
    partState := .scanning, latchedBase := s.tableBaseHi ++ s.tableBaseLo, latchedCount := s.tableCount }

theorem State.startPart_eq (s : State) : s.startPart
    = if tableFits (s.tableBaseHi ++ s.tableBaseLo) s.tableCount then s.started.readAllDescriptors
      else s.setHouseFault := by
  simp only [State.startPart, State.started]

theorem State.started_aud (s : State) (k : Aud) : s.started.aud k = (s.aud k).partStart := by
  have h : s.started.auds = (s.mapAuds fun _ a => a.partStart).auds := by simp only [State.started]
  rw [State.aud_of_auds h, State.aud_mapAuds]

theorem State.evolves_writeRunOne (s : State) : State.Evolves s s.writeRunOne := by
  unfold State.writeRunOne
  split
  · next hstopped =>
    have hlive : s.live = false := by simp [State.live, hstopped]
    rw [State.startPart_eq]
    split
    · obtain ⟨hpending, _, _, hauds, _⟩ := s.started.readAllDescriptors_spec
      refine ⟨hpending.trans (by simp only [State.started, State.mapAuds_pending]), fun k => ?_⟩
      rw [hauds, State.started_aud]
      exact .single (.partStart hlive)
    · exact State.evolves_of_auds rfl fun _ => rfl
  · exact .refl s

theorem State.evolves_endScan (s : State) : State.Evolves s s.endScan :=
  State.evolves_of_auds (State.settleStop_pending _) (State.settleStop_aud _)

theorem State.evolves_stopRunning (s : State) : State.Evolves s s.stopRunning := by
  have hblocks : State.Evolves s { s.mapAuds (fun _ a => a.partStop) with partState := .stopping, bindings := [] } :=
    State.evolves_mapAuds (fun _ a => a.partStop)
      (by simp only [State.mapAuds_pending]) (by dsimp only) fun _ _ => .single .partStop
  unfold State.stopRunning
  exact ⟨by rw [State.settleStop_pending]; exact hblocks.pending,
    fun k => by rw [State.settleStop_aud]; exact hblocks.moves k⟩

theorem State.evolves_writeRunZero (s : State) : State.Evolves s s.writeRunZero := by
  unfold State.writeRunZero
  split
  · exact s.evolves_stopRunning
  · exact s.evolves_endScan
  · exact .refl s
  · exact .refl s

theorem State.evolves_writeWindow (s : State) (offset : Byte) (v : Word) :
    State.Evolves s (s.writeWindow offset v) := by
  have henable : State.Evolves s (s.setNoticeEn (v.getLsbD 1)) := State.evolves_of_auds rfl fun _ => rfl
  unfold State.writeWindow
  split
  · next r _ =>
    cases r with
    | control =>
      change State.Evolves s (s.writeControl v)
      unfold State.writeControl
      split
      · exact s.evolves_softReset
      · split
        · exact henable.trans rfl (State.evolves_writeRunOne _)
        · exact henable.trans rfl (State.evolves_writeRunZero _)
    | ident => exact .refl s
    | status => exact .refl s
    | houseTime => exact .refl s
    | tableBaseLo => exact State.evolves_of_auds rfl fun _ => rfl
    | tableBaseHi => exact State.evolves_of_auds rfl fun _ => rfl
    | tableCount => exact State.evolves_of_auds rfl fun _ => rfl
  · exact .refl s

/-! ## The start-up scan (R145, R182, R183) -/

theorem State.evolves_settleScan (s : State) : State.Evolves s s.settleScan := by
  unfold State.settleScan
  split
  · next h =>
    have hlive : s.live = false := by simp [State.live, h.1]
    refine State.evolves_mapAuds (fun k a => if s.holdsRole k .showRecord then a.becomeHalted k else a)
      (by simp only [State.mapAuds_pending]) (by dsimp only) fun k a => ?_
    split
    · exact .single (.becomeHalted (.inl hlive))
    · exact .refl
  · exact .refl s

theorem State.evolves_bindShow (s : State) (k : Aud) (selector : Byte) (d : Descriptor) (owner : Option Aud)
    (purpose : Purpose) : State.Evolves s (s.bindShow k selector d owner purpose) :=
  ⟨rfl, fun j => (s.works_addBinding k .showRecord selector d).evolves.moves j⟩

theorem State.evolves_scanDescriptor (s : State) (selector : Byte) (d : Descriptor) :
    State.Evolves s (s.scanDescriptor selector d) := by
  have hcleared : State.Evolves s (if d.present then
      s.writeBindingBytes none .showRecord selector clearedBytes .startScanWrite else s) := by
    split <;> exact State.evolves_of_auds rfl fun _ => rfl
  have hpart : (if d.present then
      s.writeBindingBytes none .showRecord selector clearedBytes .startScanWrite else s).partState = s.partState := by
    split <;> rfl
  unfold State.scanDescriptor
  simp only
  split
  · exact hcleared
  · split
    · exact hcleared.trans hpart (State.evolves_bindShow _ _ _ _ _ _)
    · exact hcleared

theorem State.scanDescriptor_partState (s : State) (selector : Byte) (d : Descriptor) :
    (s.scanDescriptor selector d).partState = s.partState := by
  unfold State.scanDescriptor
  simp only
  split <;> split <;> (try split) <;> rfl

/-! ## The end of an access -/

theorem State.evolves_readDone (s : State) (a : Access) (d : List Byte) : State.Evolves s (s.readDone a d) := by
  cases ha : a.aud with
  | none =>
    unfold State.readDone
    simp only [ha]
    exact (s.evolves_scanDescriptor _ _).trans (s.scanDescriptor_partState _ _) (State.evolves_settleScan _)
  | some k => exact (State.works_readDone ha d).evolves

theorem State.evolves_accessFailed (s : State) (a : Access) : State.Evolves s (s.accessFailed a) := by
  cases ha : a.aud with
  | none =>
    unfold State.accessFailed State.scanFailed
    simp only [ha]
    exact (State.evolves_of_auds rfl fun _ => rfl : State.Evolves s s.setHouseFault).trans rfl
      (State.evolves_endScan _)
  | some k => exact (State.works_accessFailed ha).evolves

theorem State.evolves_writeDone (s : State) (a : Access) : State.Evolves s (s.writeDone a) := by
  cases ha : a.aud with
  | none =>
    unfold State.writeDone
    simp only [ha]
    exact s.evolves_settleScan
  | some k => exact (State.works_writeDone ha).evolves

theorem State.evolves_endAccess {s : State} {f : State → State} (h : State.Evolves s (f s)) :
    State.Evolves s (s.endAccess f) := by
  unfold State.endAccess
  split
  · exact h
  · exact h
  · exact s.evolves_settleStop
  · exact .refl s

theorem State.evolves_dropAccess (s : State) (tag : Nat) : State.Evolves s (s.dropAccess tag) :=
  State.evolves_of_auds rfl fun _ => rfl

theorem State.evolves_endRead (s : State) (tag : Nat) (sort : Purpose → Bool) (c : Completion) :
    State.Evolves s (s.endRead tag sort c) := by
  unfold State.endRead
  split
  · exact .refl s
  · split
    · exact (s.evolves_dropAccess tag).trans rfl (State.evolves_endAccess (State.evolves_readDone _ _ _))
    · exact (s.evolves_dropAccess tag).trans rfl (State.evolves_endAccess (State.evolves_accessFailed _ _))

theorem State.evolves_giveUp (s : State) (tag : Nat) : State.Evolves s (s.giveUp tag) := by
  unfold State.giveUp
  split
  · exact .refl s
  · exact (s.evolves_dropAccess tag).trans rfl (State.evolves_endAccess (State.evolves_accessFailed _ _))

theorem State.evolves_writeEnded (s : State) (a : Access) (ok : Bool) : State.Evolves s (s.writeEnded a ok) := by
  unfold State.writeEnded
  split
  · exact (s.evolves_dropAccess _).trans rfl (State.evolves_endAccess (State.evolves_writeDone _ _))
  · exact (State.evolves_of_auds rfl fun _ => rfl :
      State.Evolves s ((s.dropAccess a.tag).withdraw a.tag)).trans rfl
        (State.evolves_endAccess (State.evolves_accessFailed _ _))

theorem State.evolves_endWrite (s : State) (tag : Nat) (sort : Purpose → Bool) (ok : Bool) :
    State.Evolves s (s.endWrite tag sort ok) := by
  unfold State.endWrite
  split
  · exact .refl s
  · split
    · exact State.evolves_of_auds (s.keepAnswer_pending _ _) (s.keepAnswer_aud _ _)
    · exact s.evolves_writeEnded _ _

/-! ## Every command -/

theorem State.evolves_linkStep {s : State} {k : Aud} {l : Link} (reports : List Report)
    (h : (s.aud k).link.Good k → l.Good k) : State.Evolves s (s.linkStep k l reports) := by
  have hworks : State.Works k s ((s.modLink k fun _ => l).reportAll k reports) :=
    (State.works_modLink h).trans (State.works_reportAll _ k reports)
  exact hworks.evolves.trans hworks.partState (State.evolves_settleStop _)

theorem State.evolves_taking {s : State} {k : Aud} {c : Instr} {f : State → State}
    (h : s.ready k = some c → State.Works k s (f s)) : State.Evolves s (s.taking k c f) :=
  (State.works_taking h).evolves

/-- Every command answers a next state, to which the state evolves. -/
theorem exec_evolves (c : Instr) (s : State) : ∃ t, exec c s = .next t ∧ State.Evolves s t := by
  cases c with
  | powerOn => exact ⟨_, rfl, s.evolves_powerOn⟩
  | softReset => exact ⟨_, rfl, s.evolves_softReset⟩
  | partStart => exact ⟨_, rfl, s.evolves_writeRunOne⟩
  | partStop => exact ⟨_, rfl, s.evolves_writeRunZero⟩
  | noticeEn v => exact ⟨_, rfl, State.evolves_of_auds rfl fun _ => rfl⟩
  | statusRead => exact ⟨_, rfl, State.evolves_of_auds rfl fun _ => rfl⟩
  | registerWrite offset v => exact ⟨_, rfl, s.evolves_writeWindow offset v⟩
  | timecodeByteArrival k b =>
    refine ⟨_, rfl, ?_⟩
    split
    · exact (s.works_takeByte k b).evolves
    · exact .refl s
  | byteGapExpiry k =>
    refine ⟨_, rfl, ?_⟩
    split
    · exact State.Works.evolves (k := k)
        (State.works_modAud (.receiver _ fun _ => Receiver.sound_of_hunting rfl rfl rfl rfl))
    · exact .refl s
  | frameBoundary k first =>
    refine ⟨_, rfl, ?_⟩
    split
    · exact (s.works_takeBoundary k first).evolves
    · exact .refl s
  | buildPoint k =>
    refine ⟨_, rfl, ?_⟩
    split
    · exact (s.works_takeBuildPoint k).evolves
    · exact .refl s
  | call k => exact ⟨_, rfl, State.evolves_linkStep [] fun h => h.callExchange _⟩
  | callAnswer k b => exact ⟨_, rfl, State.evolves_linkStep _ fun h => h.answerExchange b⟩
  | sendExchange k b => exact ⟨_, rfl, State.evolves_linkStep [] fun h => h.sendExchange b⟩
  | verdict k b => exact ⟨_, rfl, State.evolves_linkStep _ fun h => h.verdictExchange b⟩
  | waitPoll k b => exact ⟨_, rfl, State.evolves_linkStep [] fun h => h.waitExchange b⟩
  | entryReadComplete tag c => exact ⟨_, rfl, s.evolves_endRead _ _ _⟩
  | textReadComplete tag c => exact ⟨_, rfl, s.evolves_endRead _ _ _⟩
  | scanReadComplete tag c => exact ⟨_, rfl, s.evolves_endRead _ _ _⟩
  | lookbackReadComplete tag c => exact ⟨_, rfl, s.evolves_endRead _ _ _⟩
  | blockReadComplete tag c => exact ⟨_, rfl, s.evolves_endRead _ _ _⟩
  | descriptorReadComplete tag c => exact ⟨_, rfl, s.evolves_endRead _ _ _⟩
  | cueListHeaderReadComplete tag c => exact ⟨_, rfl, s.evolves_endRead _ _ _⟩
  | headReadComplete tag c => exact ⟨_, rfl, s.evolves_endRead _ _ _⟩
  | slotReadComplete tag c => exact ⟨_, rfl, s.evolves_endRead _ _ _⟩
  | readGiveUp tag => exact ⟨_, rfl, s.evolves_giveUp tag⟩
  | writeComplete tag ok => exact ⟨_, rfl, s.evolves_endWrite _ _ _⟩
  | ackWriteComplete tag ok => exact ⟨_, rfl, s.evolves_endWrite _ _ _⟩
  | reportEntryWriteComplete tag ok => exact ⟨_, rfl, s.evolves_endWrite _ _ _⟩
  | bind k role selector => exact ⟨_, rfl, State.evolves_taking fun _ => s.works_doBind k role selector⟩
  | release k role => exact ⟨_, rfl, State.evolves_taking fun _ => s.works_doRelease k role⟩
  | run k =>
    exact ⟨_, rfl, State.evolves_taking fun h => State.works_doRun h⟩
  | halt k => exact ⟨_, rfl, State.evolves_taking fun _ => s.works_doHalt k⟩
  | setChannels k captions narration copies refresh check address =>
    exact ⟨_, rfl, State.evolves_taking fun _ => s.works_doSetChannels k fun _ => channelsOf_within⟩
  | setLoop k c0 c1 c2 pm epsMax holdover trim =>
    exact ⟨_, rfl, State.evolves_taking fun _ => s.works_doSetLoop k fun _ => loopOf_within⟩
  | setMix k gn gb gd attack release =>
    exact ⟨_, rfl, State.evolves_taking fun _ => s.works_doSetMix k gn gb gd attack release⟩
  | mark k => exact ⟨_, rfl, State.evolves_taking fun _ => s.works_decide k _ _⟩
  | tagFirst k index =>
    exact ⟨_, rfl, State.evolves_taking fun _ => s.works_settleTagResult k fun _ h _ => tagFirstResult_sound h⟩
  | tagLast k index =>
    exact ⟨_, rfl, State.evolves_taking fun _ => s.works_settleTagResult k fun _ h _ => tagLastResult_sound h⟩
  | untag k index =>
    exact ⟨_, rfl, State.evolves_taking fun _ => s.works_settleTagResult k fun _ => untagResult_sound⟩
  | retract k => exact ⟨_, rfl, State.evolves_taking fun _ => s.works_doRetract k⟩
  | unknownDirective k kind => exact ⟨_, rfl, State.evolves_taking fun _ => s.works_settle k _⟩

/-- Settles O3: every arm of `exec` answers a next state, and none touches the queue. -/
theorem everyCommandAnswersAndLeavesTheQueue : Obligations.EveryCommandAnswersAndLeavesTheQueue := by
  unfold Obligations.EveryCommandAnswersAndLeavesTheQueue
  intro c s
  obtain ⟨t, ht, h⟩ := exec_evolves c s
  exact ⟨t, ht, h.pending⟩

/-! ## Every step -/

/-- R13: the blocks of auditorium `k` a house tick later, the new frame phase `phase`. -/
def Auditorium.ticked (phase : Fin 480) (k : Aud) (a : Auditorium) : Auditorium :=
  { a with
    boundaryDue := a.boundaryDue || phase.val == boundaryPhase k
    buildDue := a.buildDue || phase.val == buildPhase k }

theorem State.tick_aud (s : State) (k : Aud) : s.tick.aud k = (s.aud k).ticked (s.framePhase + 1) k := by
  have h : s.tick.auds = (s.mapAuds fun k a => a.ticked (s.framePhase + 1) k).auds := by
    simp only [State.tick, Auditorium.ticked]
  rw [State.aud_of_auds h, State.aud_mapAuds]

/-- In every step the blocks of every auditorium move. -/
theorem step_moves {s t : State} (h : step s = .next t) (k : Aud) : Auditorium.Moves s.live k (s.aud k) (t.aud k) := by
  unfold step at h
  split at h
  · cases h
    unfold State.idle
    split
    · rw [s.tick_aud]
      exact .single (.book _ _ _ _)
    · exact .refl
  · next c rest _ =>
    obtain ⟨u, hu, hevolves⟩ := exec_evolves c { s with pending := rest }
    rw [hu] at h
    cases h
    exact hevolves.moves k

/-- A property of one auditorium's blocks that every move keeps is kept by every step. -/
theorem step_keeps {P : Auditorium → Prop} {k : Aud} {s t : State} (h : step s = .next t)
    (hmove : ∀ a b, Auditorium.Move s.live k a b → P a → P b) (hs : P (s.aud k)) : P (t.aud k) := by
  have hmoves := step_moves h k
  generalize s.aud k = a at hmoves hs
  generalize t.aud k = b at hmoves
  induction hmoves with
  | refl => exact hs
  | tail _ hlast ih => exact hmove _ _ hlast ih

/-- Settles O54: each move keeps the receiver and the clock in their ranges. -/
theorem everyStepKeepsReceiversAndClocksInRange : Obligations.EveryStepKeepsReceiversAndClocksInRange := by
  unfold Obligations.EveryStepKeepsReceiversAndClocksInRange
  intro s t hs hstep k
  refine step_keeps (P := fun a => a.receiver.Sound ∧ a.clock.Within) hstep (fun a b hmove h => ?_) (hs k)
  obtain ⟨hr, hc⟩ := h
  cases hmove with
  | receiver r hsound => exact ⟨hsound hr, hc⟩
  | clock c hwithin => exact ⟨hr, hwithin hc⟩
  | run => exact ⟨⟨hr.hunting, hr.assembling⟩, hc.run⟩
  | halt _ _ hhalts =>
    refine ⟨by rw [hhalts.receiver]; exact hr, ?_⟩
    obtain hclock | hclock := hhalts.clock <;> rw [hclock]
    · exact hc.cleared
    · exact hc
  | becomeHalted => exact ⟨hr, hc.defaultLoop⟩
  | becomeDark => exact ⟨hr, hc.toIdle⟩
  | partStart => exact ⟨Receiver.sound_of_hunting rfl rfl rfl rfl, hc.cleared⟩
  | partStop => exact ⟨Receiver.sound_of_hunting rfl rfl rfl rfl, hc.toIdle⟩
  | reset => exact ⟨Receiver.sound_initial, Clock.within_initial⟩
  | _ => exact ⟨hr, hc⟩

/-- Settles O55: each move keeps the link sound and its frames within the payload limit. -/
theorem everyStepKeepsTheLinksSound : Obligations.EveryStepKeepsTheLinksSound := by
  unfold Obligations.EveryStepKeepsTheLinksSound
  intro s t hs hstep k
  refine step_keeps (P := fun a => a.link.Good k) hstep (fun a b hmove h => ?_) (hs k)
  cases hmove with
  | link l hgood => exact hgood h
  | run => exact h.run
  | halt _ _ hhalts => rw [hhalts.link]; exact h
  | becomeHalted => exact h.becomeHalted
  | becomeDark => exact h.finishUp
  | partStart => exact Link.good_partStart _
  | partStop => exact h.finishUp
  | reset => exact ⟨Link.sound_initial k, Link.fits_initial k⟩
  | _ => exact h

end Sys2Proof.Machine
end

section
/-! SUPPORT. Every step keeps what the part state promises (R181). -/

namespace Sys2Proof.Machine

/-! ## In which respects a state may differ -/

/-- From `s` to `t` nothing changes that the part state speaks of. -/
structure State.Still (s t : State) : Prop where
  partState : t.partState = s.partState
  bindings : t.bindings = s.bindings
  inFlight : t.inFlight = s.inFlight
  showState : ∀ k, (t.aud k).unit.showState = (s.aud k).unit.showState
  link : ∀ k, (t.aud k).link.state = (s.aud k).link.state

theorem State.Still.refl (s : State) : State.Still s s := ⟨rfl, rfl, rfl, fun _ => rfl, fun _ => rfl⟩

theorem State.Still.trans {s t u : State} (h : State.Still s t) (g : State.Still t u) : State.Still s u :=
  ⟨g.partState.trans h.partState, g.bindings.trans h.bindings, g.inFlight.trans h.inFlight,
    fun k => (g.showState k).trans (h.showState k), fun k => (g.link k).trans (h.link k)⟩

theorem State.still_modAud {s : State} {k : Aud} {f : Auditorium → Auditorium}
    (hshow : (f (s.aud k)).unit.showState = (s.aud k).unit.showState)
    (hlink : (f (s.aud k)).link.state = (s.aud k).link.state) : State.Still s (s.modAud k f) := by
  refine ⟨rfl, rfl, rfl, fun j => ?_, fun j => ?_⟩ <;> rw [State.aud_modAud] <;> split
  · next h => rw [h, hshow]
  · rfl
  · next h => rw [h, hlink]
  · rfl

theorem State.PartSound.of_still {s t : State} (h : s.PartSound) (g : State.Still s t) : t.PartSound where
  dark := fun hp k => by rw [g.showState]; exact h.dark (g.partState ▸ hp) k
  unbound := fun hp => by rw [g.bindings]; exact h.unbound (g.partState ▸ hp)
  idle := fun hp k => by rw [g.link]; exact h.idle (g.partState ▸ hp) k
  quiet := fun hp => by rw [g.inFlight]; exact h.quiet (g.partState ▸ hp)
  scanBindings := fun hp => by rw [g.bindings]; exact h.scanBindings (g.partState ▸ hp)
  scanReads := fun hp => by rw [g.inFlight]; exact h.scanReads (g.partState ▸ hp)
  owned := fun hp => by rw [g.inFlight]; exact h.owned (g.partState ▸ hp)

/-- In RUNNING the part state promises only that every access has its auditorium. -/
theorem State.partSound_of_running {t : State} (hp : t.partState = .running)
    (howned : ∀ a ∈ t.inFlight, a.aud ≠ none) : t.PartSound := by
  constructor <;> intro h
  · exact absurd hp h
  · rw [hp] at h; exact h.elim (fun h => nomatch h) fun h => nomatch h
  · rw [hp] at h; exact h.elim (fun h => nomatch h) fun h => nomatch h
  · rw [hp] at h; exact nomatch h
  · rw [hp] at h; exact nomatch h
  · rw [hp] at h; exact nomatch h
  · exact howned

/-- In STOPPING the part state promises dark shows and an empty map. -/
theorem State.partSound_of_stopping {t : State} (hp : t.partState = .stopping)
    (hdark : ∀ k, (t.aud k).unit.showState = .dark) (hmap : t.bindings = []) : t.PartSound := by
  constructor <;> intro h
  · exact hdark
  · exact hmap
  · rw [hp] at h; exact h.elim (fun h => nomatch h) fun h => nomatch h
  · rw [hp] at h; exact nomatch h
  · rw [hp] at h; exact nomatch h
  · rw [hp] at h; exact nomatch h
  · rw [hp] at h; exact nomatch h

/-- In SCANNING accesses and bindings are the scan's. -/
theorem State.partSound_of_scanning {t : State} (hp : t.partState = .scanning)
    (hdark : ∀ k, (t.aud k).unit.showState = .dark) (hidle : ∀ k, (t.aud k).link.state = .idle)
    (hmap : ∀ b ∈ t.bindings, b.role = .showRecord) (hreads : ∀ a ∈ t.inFlight, a.aud = none) : t.PartSound := by
  constructor <;> intro h
  · exact hdark
  · rw [hp] at h; exact h.elim (fun h => nomatch h) fun h => nomatch h
  · exact hidle
  · rw [hp] at h; exact nomatch h
  · exact hmap
  · exact hreads
  · rw [hp] at h; exact nomatch h

/-- Work on one auditorium of a RUNNING part keeps the promise. -/
theorem State.PartSound.of_works {k : Aud} {s t : State} (h : s.PartSound) (hp : s.partState = .running)
    (g : State.Works k s t) : t.PartSound :=
  State.partSound_of_running (g.partState.trans hp) fun a ha => by
    obtain hk | ⟨b, hb, hba⟩ := g.inFlight a ha
    · rw [hk]; exact fun h => nomatch h
    · rw [← hba]; exact h.owned hp b hb

/-! ## The end of a stop, and resets (R183 to R186) -/

/-- R184: a stop that ends finds nothing in flight and every link IDLE. -/
theorem State.settleStop_stopped {s : State} (h : s.settleStop ≠ s) :
    s.partState = .stopping ∧ s.inFlight = [] ∧ (∀ k, (s.aud k).link.state = .idle)
      ∧ s.settleStop = { s with partState := .stopped } := by
  unfold State.settleStop at h ⊢
  split
  · next hc =>
    obtain ⟨hstopping, hempty, hlinks⟩ := hc
    refine ⟨hstopping, hempty, fun k => ?_, rfl⟩
    have := Vector.all_eq_true.mp hlinks k.val k.isLt
    simpa [State.aud] using this
  · next hc => exact absurd (if_neg hc) h

theorem State.PartSound.settleStop {s : State} (h : s.PartSound) : s.settleStop.PartSound := by
  by_cases hsame : s.settleStop = s
  · rw [hsame]; exact h
  · obtain ⟨hstopping, hempty, hlinks, heq⟩ := State.settleStop_stopped hsame
    rw [heq]
    have hdark := h.dark (by rw [hstopping]; decide)
    have hmap := h.unbound (.inr hstopping)
    exact ⟨fun _ => hdark, fun _ => hmap, fun _ => hlinks, fun _ => hempty, fun h => (nomatch h),
      fun h => (nomatch h), fun h => (nomatch h)⟩

theorem State.partSound_powerOn (s : State) : s.powerOn.PartSound :=
  State.partSound_reset.of_still ⟨rfl, rfl, rfl, fun _ => rfl, fun _ => rfl⟩

theorem State.partSound_softReset (s : State) : s.softReset.PartSound :=
  State.partSound_reset.of_still ⟨rfl, rfl, rfl, fun _ => rfl, fun _ => rfl⟩

theorem State.PartSound.writeRunOne {s : State} (h : s.PartSound) : s.writeRunOne.PartSound := by
  unfold State.writeRunOne
  split
  · next hstopped =>
    rw [State.startPart_eq]
    split
    · obtain ⟨_, hpart, hbindings, hauds, hreads⟩ := s.started.readAllDescriptors_spec
      refine State.partSound_of_scanning hpart (fun k => ?_) (fun k => ?_) (fun b hb => ?_) fun a ha => ?_
      · rw [hauds, State.started_aud]
        exact h.dark (by rw [hstopped]; decide) k
      · rw [hauds, State.started_aud]
        rfl
      · have hempty : s.started.bindings = [] := by
          simp only [State.started, State.mapAuds_bindings]
          exact h.unbound (.inl hstopped)
        rw [hbindings, hempty] at hb
        exact nomatch hb
      · have hempty : s.started.inFlight = [] := by
          simp only [State.started, State.mapAuds_inFlight]
          exact h.quiet hstopped
        obtain ha | ha := hreads a ha
        · rw [hempty] at ha
          exact nomatch ha
        · exact ha
    · exact h.of_still ⟨rfl, rfl, rfl, fun _ => rfl, fun _ => rfl⟩
  · exact h

theorem State.PartSound.endScan {s : State} (h : s.PartSound) (hp : s.partState ≠ .running) : s.endScan.PartSound :=
  State.PartSound.settleStop (State.partSound_of_stopping rfl (h.dark hp) rfl)

/-- R184: the part at the move into STOPPING, before the stop can end. -/
def State.stoppedBlocks (s : State) : State :=
  { s.mapAuds (fun _ a => a.partStop) with partState := .stopping, bindings := [] }

theorem State.stopRunning_eq (s : State) : s.stopRunning = s.stoppedBlocks.settleStop := by
  simp only [State.stopRunning, State.stoppedBlocks]

theorem State.stoppedBlocks_aud (s : State) (k : Aud) : s.stoppedBlocks.aud k = (s.aud k).partStop := by
  have h : s.stoppedBlocks.auds = (s.mapAuds fun _ a => a.partStop).auds := by simp only [State.stoppedBlocks]
  rw [State.aud_of_auds h, State.aud_mapAuds]

theorem State.PartSound.writeRunZero {s : State} (h : s.PartSound) : s.writeRunZero.PartSound := by
  unfold State.writeRunZero
  split
  · rw [State.stopRunning_eq]
    exact State.PartSound.settleStop
      (State.partSound_of_stopping rfl (fun k => by rw [State.stoppedBlocks_aud]; rfl) rfl)
  · next hp => exact h.endScan (by rw [hp]; decide)
  · exact h
  · exact h

theorem State.PartSound.writeWindow {s : State} (h : s.PartSound) (offset : Byte) (v : Word) :
    (s.writeWindow offset v).PartSound := by
  have henable : (s.setNoticeEn (v.getLsbD 1)).PartSound :=
    h.of_still ⟨rfl, rfl, rfl, fun _ => rfl, fun _ => rfl⟩
  unfold State.writeWindow
  split
  · next r _ =>
    cases r with
    | control =>
      change (s.writeControl v).PartSound
      unfold State.writeControl
      split
      · exact s.partSound_softReset
      · split
        · exact henable.writeRunOne
        · exact henable.writeRunZero
    | ident => exact h
    | status => exact h
    | houseTime => exact h
    | tableBaseLo => exact h.of_still ⟨rfl, rfl, rfl, fun _ => rfl, fun _ => rfl⟩
    | tableBaseHi => exact h.of_still ⟨rfl, rfl, rfl, fun _ => rfl, fun _ => rfl⟩
    | tableCount => exact h.of_still ⟨rfl, rfl, rfl, fun _ => rfl, fun _ => rfl⟩
  · exact h

/-! ## The scan (R145, R182) -/

theorem State.PartSound.settleScan {s : State} (h : s.PartSound) : s.settleScan.PartSound := by
  unfold State.settleScan
  split
  · next hc =>
    exact State.partSound_of_running rfl fun a ha => by
      simp only [State.mapAuds_inFlight, hc.2] at ha
      exact nomatch ha
  · exact h

theorem State.PartSound.scanAccess {s : State} (h : s.PartSound) (hp : s.partState = .scanning) (role : Role)
    (selector : Byte) (within length : Nat) (data : List Byte) (purpose : Purpose) :
    (s.tableAccess none role selector within length data purpose).PartSound := by
  refine State.partSound_of_scanning hp (h.dark (by rw [hp]; decide)) (h.idle (.inr hp)) (h.scanBindings hp)
    fun a ha => ?_
  obtain ha | ha := List.mem_append.mp ha
  · exact h.scanReads hp a ha
  · rw [List.mem_singleton.mp ha]

theorem State.PartSound.scanDescriptor {s : State} (h : s.PartSound) (hp : s.partState = .scanning) (selector : Byte)
    (d : Descriptor) : (s.scanDescriptor selector d).PartSound := by
  have hbind {u : State} (hu : u.PartSound) (hup : u.partState = .scanning) (k : Aud) :
      (u.bindShow k selector d none .startScanWrite).PartSound := by
    have hadded : (u.addBinding k .showRecord selector d).PartSound := by
      have hs : State.Still u (u.modAud k fun a => { a with epochs := (u.aud k).epochs.raise .showRecord }) :=
        State.still_modAud rfl rfl
      refine State.partSound_of_scanning hup (fun j => ?_) (fun j => ?_) (fun b hb => ?_) (hu.scanReads hup)
      · exact (hs.showState j).trans (hu.dark (by rw [hup]; decide) j)
      · exact (hs.link j).trans (hu.idle (.inr hup) j)
      · obtain hb | hb := List.mem_append.mp hb
        · exact hu.scanBindings hup b hb
        · rw [List.mem_singleton.mp hb]
    exact hadded.scanAccess hup _ _ _ _ _ _
  unfold State.scanDescriptor
  simp only
  by_cases hpresent : d.present = true
  · simp only [hpresent, if_true]
    have hcleared : (s.writeBindingBytes none .showRecord selector clearedBytes .startScanWrite).PartSound :=
      h.scanAccess hp _ _ _ _ _ _
    split
    · exact hcleared
    · split
      · exact hbind hcleared hp _
      · exact hcleared
  · simp only [hpresent, Bool.false_eq_true, if_false]
    split
    · exact h
    · split
      · exact hbind h hp _
      · exact h

/-! ## The end of an access -/

/-- What is in flight after the end of an access was so before, under the same auditorium. -/
theorem State.PartSound.of_fewer {s t : State} (h : s.PartSound) (hpart : t.partState = s.partState)
    (hbindings : t.bindings = s.bindings) (hauds : ∀ k, t.aud k = s.aud k)
    (hinFlight : ∀ a ∈ t.inFlight, ∃ b ∈ s.inFlight, b.aud = a.aud) : t.PartSound where
  dark := fun hp k => by rw [hauds]; exact h.dark (hpart ▸ hp) k
  unbound := fun hp => by rw [hbindings]; exact h.unbound (hpart ▸ hp)
  idle := fun hp k => by rw [hauds]; exact h.idle (hpart ▸ hp) k
  quiet := fun hp => List.eq_nil_iff_forall_not_mem.mpr fun a ha => by
    obtain ⟨b, hb, _⟩ := hinFlight a ha
    rw [h.quiet (hpart ▸ hp)] at hb
    exact nomatch hb
  scanBindings := fun hp => by rw [hbindings]; exact h.scanBindings (hpart ▸ hp)
  scanReads := fun hp a ha => by
    obtain ⟨b, hb, hba⟩ := hinFlight a ha
    rw [← hba]
    exact h.scanReads (hpart ▸ hp) b hb
  owned := fun hp a ha => by
    obtain ⟨b, hb, hba⟩ := hinFlight a ha
    rw [← hba]
    exact h.owned (hpart ▸ hp) b hb

theorem State.PartSound.dropAccess {s : State} (h : s.PartSound) (tag : Nat) : (s.dropAccess tag).PartSound :=
  h.of_fewer rfl rfl (fun _ => rfl) fun a ha => ⟨a, List.mem_of_mem_filter ha, rfl⟩

theorem State.PartSound.withdraw {s : State} (h : s.PartSound) (tag : Nat) : (s.withdraw tag).PartSound :=
  h.of_fewer rfl rfl (fun _ => rfl) fun a ha => by
    obtain ⟨b, hb, rfl⟩ := List.mem_map.mp ha
    exact ⟨b, hb, rfl⟩

theorem State.PartSound.keepAnswer {s : State} (h : s.PartSound) (tag : Nat) (ok : Bool) :
    (s.keepAnswer tag ok).PartSound := by
  have hkept : State.PartSound { s with inFlight := s.inFlight.map fun a =>
      if a.tag = tag then { a with answer := some ok } else a } :=
    h.of_fewer rfl rfl (fun _ => rfl) fun a ha => by
      obtain ⟨b, hb, rfl⟩ := List.mem_map.mp ha
      exact ⟨b, hb, by split <;> rfl⟩
  cases ok
  · exact hkept.withdraw tag
  · exact hkept

/-- R183, R184: the end of the access `a` of `s`, whose blocks then do `f`, in each part state. `f` is the scan's in
SCANNING, and of `a`'s auditorium in RUNNING. -/
theorem State.PartSound.endAccess {s t : State} (hs : s.PartSound) (h : t.PartSound)
    (hpart : t.partState = s.partState) {a : Access} (ha : a ∈ s.inFlight) {f : State → State}
    (hscan : a.aud = none → t.partState = .scanning → (f t).PartSound)
    (hrun : ∀ k, a.aud = some k → State.Works k t (f t)) : (t.endAccess f).PartSound := by
  unfold State.endAccess
  split
  · next hp => exact hscan (hs.scanReads (hpart.symm.trans hp) a ha) hp
  · next hp =>
    obtain ⟨k, hk⟩ := Option.ne_none_iff_exists'.mp (hs.owned (hpart.symm.trans hp) a ha)
    exact h.of_works hp (hrun k hk)
  · exact h.settleStop
  · exact h

theorem State.PartSound.accessFails {s t : State} (hs : s.PartSound) (h : t.PartSound)
    (hpart : t.partState = s.partState) {a : Access} (ha : a ∈ s.inFlight) :
    (t.endAccess fun s => s.accessFailed a).PartSound := by
  refine hs.endAccess h hpart ha (fun hnone hp => ?_) fun k hk => State.works_accessFailed hk
  unfold State.accessFailed State.scanFailed
  simp only [hnone]
  exact State.PartSound.endScan (h.of_still ⟨rfl, rfl, rfl, fun _ => rfl, fun _ => rfl⟩) (by
    rw [State.setHouseFault_partState, hp]; decide)

theorem State.PartSound.endRead {s : State} (h : s.PartSound) (tag : Nat) (sort : Purpose → Bool) (c : Completion) :
    (s.endRead tag sort c).PartSound := by
  unfold State.endRead
  split
  · exact h
  · next a ha =>
    have hmem := List.mem_of_find?_eq_some ha
    split
    · next d =>
      refine h.endAccess (h.dropAccess tag) rfl hmem (fun hnone hp => ?_) fun k hk => State.works_readDone hk _
      unfold State.readDone
      simp only [hnone]
      exact ((h.dropAccess tag).scanDescriptor hp _ _).settleScan
    · exact h.accessFails (h.dropAccess tag) rfl hmem

theorem State.PartSound.giveUp {s : State} (h : s.PartSound) (tag : Nat) : (s.giveUp tag).PartSound := by
  unfold State.giveUp
  split
  · exact h
  · next a ha => exact h.accessFails (h.dropAccess tag) rfl (List.mem_of_find?_eq_some ha)

theorem State.PartSound.endWrite {s : State} (h : s.PartSound) (tag : Nat) (sort : Purpose → Bool) (ok : Bool) :
    (s.endWrite tag sort ok).PartSound := by
  unfold State.endWrite
  split
  · exact h
  · next a ha =>
    have hmem := List.mem_of_find?_eq_some ha
    split
    · exact h.keepAnswer tag _
    · unfold State.writeEnded
      split
      · refine h.endAccess (h.dropAccess a.tag) rfl hmem (fun hnone _ => ?_) fun k hk => State.works_writeDone hk
        unfold State.writeDone
        simp only [hnone]
        exact (h.dropAccess a.tag).settleScan
      · exact h.accessFails ((h.dropAccess a.tag).withdraw a.tag) rfl hmem

/-! ## Links, boundaries and directives -/

theorem State.report_of_not_running {s : State} (hp : s.partState ≠ .running) (k : Aud) (r : Report) :
    s.report k r = s :=
  if_neg hp

theorem State.reportAll_of_not_running {s : State} (hp : s.partState ≠ .running) (k : Aud) (l : List Report) :
    s.reportAll k l = s := by
  induction l with
  | nil => rfl
  | cons r rest ih =>
    unfold State.reportAll
    rw [List.foldl_cons, State.report_of_not_running hp]
    exact ih

/-- R181: of a part that is not RUNNING an IDLE link is left alone, and any other leaves the part in STOPPING. -/
theorem State.PartSound.linkStep {s : State} (h : s.PartSound) {k : Aud} {l : Link} (reports : List Report)
    (hgood : (s.aud k).link.Good k → l.Good k) (hidle : (s.aud k).link.state = .idle → l = (s.aud k).link) :
    (s.linkStep k l reports).PartSound := by
  unfold State.linkStep
  refine State.PartSound.settleStop ?_
  by_cases hp : s.partState = .running
  · exact h.of_works hp ((State.works_modLink hgood).trans (State.works_reportAll _ k reports))
  · rw [State.reportAll_of_not_running (s := s.modLink k fun _ => l) hp]
    by_cases hstopping : s.partState = .stopping
    · refine State.partSound_of_stopping hstopping (fun j => ?_) (h.unbound (.inr hstopping))
      rw [State.modLink_def, State.aud_modAud]
      split <;> exact h.dark hp j
    · have hrest : s.partState = .stopped ∨ s.partState = .scanning := by
        cases hs : s.partState <;> simp_all
      have hl := hidle (h.idle hrest k)
      rw [hl]
      exact h.of_still (State.still_modAud rfl rfl)

theorem Link.callExchange_idle {l : Link} (h : l.state = .idle) (c : ChannelSettings) : l.callExchange c = l := by
  simp [Link.callExchange, h]
theorem Link.answerExchange_idle {l : Link} (h : l.state = .idle) (b : Byte) : (l.answerExchange b).1 = l := by
  simp [Link.answerExchange, h]
theorem Link.sendExchange_idle {l : Link} (h : l.state = .idle) (b : Byte) : l.sendExchange b = l := by
  simp [Link.sendExchange, h]
theorem Link.verdictExchange_idle {l : Link} (h : l.state = .idle) (b : Byte) : (l.verdictExchange b).1 = l := by
  simp [Link.verdictExchange, h]
theorem Link.waitExchange_idle {l : Link} (h : l.state = .idle) (b : Byte) : l.waitExchange b = l := by
  simp [Link.waitExchange, h]

/-- R59: a clear order issues no access. -/
theorem Sequencer.clearOrder_silent (q : Sequencer) (env : SeqEnv) :
    ∀ o ∈ (q.clearOrder env).2, (∃ c cue cause, o = .remove c cue cause) ∨ ∃ c, o = .clear c := by
  intro o ho
  unfold Sequencer.clearOrder at ho
  split at ho
  · obtain ⟨c, _, ho⟩ := List.mem_flatMap.mp ho
    obtain ho | ho := List.mem_append.mp ho
    · obtain ⟨a, _, rfl⟩ := List.mem_map.mp ho
      exact .inl ⟨_, _, _, rfl⟩
    · split at ho
      · exact .inr ⟨c, List.mem_singleton.mp ho⟩
      · exact nomatch ho
  · exact nomatch ho

theorem State.still_askBuilder (s : State) (k : Aud) (f : Builder → Builder) : State.Still s (s.askBuilder k f) := by
  unfold State.askBuilder
  split
  · exact State.still_modAud rfl rfl
  · exact .refl s

theorem State.still_seqSendAll {l : List SeqOut} {k : Aud}
    (h : ∀ o ∈ l, (∃ c cue cause, o = .remove c cue cause) ∨ ∃ c, o = .clear c) (s : State) :
    State.Still s (s.seqSendAll k l) := by
  induction l generalizing s with
  | nil => exact .refl s
  | cons o rest ih =>
    have hfirst : State.Still s (s.seqSend k o) := by
      obtain ⟨c, cue, cause, rfl⟩ | ⟨c, rfl⟩ := h o List.mem_cons_self
      · exact s.still_askBuilder k _
      · exact s.still_askBuilder k _
    exact hfirst.trans (ih (fun o ho => h o (List.mem_cons_of_mem _ ho)) _)

theorem State.still_deliver_clear (s : State) (k : Aud) : State.Still s (s.deliver k .clear) := by
  have hsignal : State.Still s (s.signalBuilder k) := by
    unfold State.signalBuilder
    split
    · exact State.still_modAud rfl rfl
    · exact .refl s
  have hmixer : State.Still (s.signalBuilder k) ((s.signalBuilder k).modMixer k Mixer.markResync) :=
    State.still_modAud rfl rfl
  have hseq (u : State) (f : Sequencer → Sequencer) : State.Still u (u.modSeq k f) := State.still_modAud rfl rfl
  exact (hsignal.trans hmixer).trans
    ((hseq _ _).trans (State.still_seqSendAll (Sequencer.clearOrder_silent _ _) _))

/-- R14 to R16: of a part that is not RUNNING a boundary leaves all that the part state speaks of. -/
theorem State.still_takeBoundary {s : State} (hp : s.partState ≠ .running) (k : Aud) (first : Bool) :
    State.Still s (s.takeBoundary k first) := by
  have hdue : State.Still s (s.modAud k fun a => { a with boundaryDue := false }) := State.still_modAud rfl rfl
  have hclock (u : State) (x : ClockAnswer) (hu : u.partState ≠ .running)
      (hsig : x.signal = none ∨ x.signal = some .clear) : State.Still u (u.clockStep k x) := by
    have hput : State.Still u (u.modClock k fun _ => x.clock) := State.still_modAud rfl rfl
    unfold State.clockStep
    simp only
    rw [State.reportAll_of_not_running (s := u.modClock k fun _ => x.clock) hu]
    obtain hsig | hsig := hsig <;> rw [hsig]
    · exact hput
    · exact hput.trans (State.still_deliver_clear _ k)
  unfold State.takeBoundary
  simp only
  rw [if_neg hp]
  refine hdue.trans (hclock _ _ hp ?_)
  obtain ⟨_, _, _, h⟩ | ⟨_, _, h⟩ | ⟨_, h⟩ := ((s.aud k).clock.moveTime s.houseTime).countSilence_cases
  · exact .inr h
  · exact .inl h
  · exact .inl h

theorem State.PartSound.taking {s : State} (h : s.PartSound) {k : Aud} {c : Instr} {f : State → State}
    (hf : s.ready k = some c → State.Works k s (f s)) : (s.taking k c f).PartSound := by
  unfold State.taking
  split
  · next hready =>
    have hlive := (State.ready_some hready).1
    exact h.of_works (by simpa [State.live] using hlive) (hf hready)
  · exact h

/-- Every command keeps what the part state promises. -/
theorem exec_partSound {c : Instr} {s t : State} (h : s.PartSound) (ht : exec c s = .next t) : t.PartSound := by
  cases c <;> cases ht
  case powerOn => exact s.partSound_powerOn
  case softReset => exact s.partSound_softReset
  case partStart => exact h.writeRunOne
  case partStop => exact h.writeRunZero
  case noticeEn v => exact h.of_still ⟨rfl, rfl, rfl, fun _ => rfl, fun _ => rfl⟩
  case statusRead => exact h.of_still ⟨rfl, rfl, rfl, fun _ => rfl, fun _ => rfl⟩
  case registerWrite offset v => exact h.writeWindow offset v
  case timecodeByteArrival k b =>
    split
    · next hp => exact h.of_works hp (s.works_takeByte k b)
    · exact h
  case byteGapExpiry k =>
    split
    · exact h.of_still (State.still_modAud rfl rfl)
    · exact h
  case frameBoundary k first =>
    split
    · by_cases hp : s.partState = .running
      · exact h.of_works hp (s.works_takeBoundary k first)
      · exact h.of_still (State.still_takeBoundary hp k first)
    · exact h
  case buildPoint k =>
    split
    · by_cases hp : s.partState = .running
      · exact h.of_works hp (s.works_takeBuildPoint k)
      · unfold State.takeBuildPoint
        simp only
        rw [if_neg hp]
        exact h.of_still (State.still_modAud rfl rfl)
    · exact h
  case call k => exact h.linkStep [] (fun h => h.callExchange _) fun h => Link.callExchange_idle h _
  case callAnswer k b => exact h.linkStep _ (fun h => h.answerExchange b) fun h => Link.answerExchange_idle h b
  case sendExchange k b => exact h.linkStep [] (fun h => h.sendExchange b) fun h => Link.sendExchange_idle h b
  case verdict k b => exact h.linkStep _ (fun h => h.verdictExchange b) fun h => Link.verdictExchange_idle h b
  case waitPoll k b => exact h.linkStep [] (fun h => h.waitExchange b) fun h => Link.waitExchange_idle h b
  case entryReadComplete tag c => exact h.endRead _ _ _
  case textReadComplete tag c => exact h.endRead _ _ _
  case scanReadComplete tag c => exact h.endRead _ _ _
  case lookbackReadComplete tag c => exact h.endRead _ _ _
  case blockReadComplete tag c => exact h.endRead _ _ _
  case descriptorReadComplete tag c => exact h.endRead _ _ _
  case cueListHeaderReadComplete tag c => exact h.endRead _ _ _
  case headReadComplete tag c => exact h.endRead _ _ _
  case slotReadComplete tag c => exact h.endRead _ _ _
  case readGiveUp tag => exact h.giveUp tag
  case writeComplete tag ok => exact h.endWrite _ _ _
  case ackWriteComplete tag ok => exact h.endWrite _ _ _
  case reportEntryWriteComplete tag ok => exact h.endWrite _ _ _
  case bind k role selector => exact h.taking fun _ => s.works_doBind k role selector
  case release k role => exact h.taking fun _ => s.works_doRelease k role
  case run k => exact h.taking fun h => State.works_doRun h
  case halt k => exact h.taking fun _ => s.works_doHalt k
  case setChannels k captions narration copies refresh check address =>
    exact h.taking fun _ => s.works_doSetChannels k fun _ => channelsOf_within
  case setLoop k c0 c1 c2 pm epsMax holdover trim => exact h.taking fun _ => s.works_doSetLoop k fun _ => loopOf_within
  case setMix k gn gb gd attack release => exact h.taking fun _ => s.works_doSetMix k gn gb gd attack release
  case mark k => exact h.taking fun _ => s.works_decide k _ _
  case tagFirst k index =>
    exact h.taking fun _ => s.works_settleTagResult k fun _ h _ => tagFirstResult_sound h
  case tagLast k index =>
    exact h.taking fun _ => s.works_settleTagResult k fun _ h _ => tagLastResult_sound h
  case untag k index => exact h.taking fun _ => s.works_settleTagResult k fun _ => untagResult_sound
  case retract k => exact h.taking fun _ => s.works_doRetract k
  case unknownDirective k kind => exact h.taking fun _ => s.works_settle k _

theorem State.still_tick (s : State) : State.Still s s.tick where
  partState := by simp only [State.tick, State.mapAuds_partState]
  bindings := by simp only [State.tick, State.mapAuds_bindings]
  inFlight := by simp only [State.tick, State.mapAuds_inFlight]
  showState := fun k => by rw [State.tick_aud]; rfl
  link := fun k => by rw [State.tick_aud]; rfl

/-- Settles O58: every command keeps the promises of the part state, and with no command waiting nothing changes that
it speaks of. -/
theorem everyStepKeepsThePartStatePromises : Obligations.EveryStepKeepsThePartStatePromises := by
  unfold Obligations.EveryStepKeepsThePartStatePromises
  intro s t h hstep
  unfold step at hstep
  split at hstep
  · cases hstep
    unfold State.idle
    split
    · exact h.of_still s.still_tick
    · exact h.of_still ⟨rfl, rfl, rfl, fun _ => rfl, fun _ => rfl⟩
  · next c rest _ =>
    have hrest : ({ s with pending := rest } : State).PartSound :=
      h.of_still ⟨rfl, rfl, rfl, fun _ => rfl, fun _ => rfl⟩
    exact exec_partSound hrest hstep

end Sys2Proof.Machine
end

section
/-! SUPPORT. The step, the registers and latches, power-on and reset, the start and the stop of the part. -/

namespace Sys2Proof.Machine

/-! ## Power-on, reset and registers (R177 to R180, R185, R186) -/

/-- Settles O1, by the definition of the step. -/
theorem stepTakesTheFrontCommand : Obligations.StepTakesTheFrontCommand := by
  unfold Obligations.StepTakesTheFrontCommand
  intro c rest s
  rfl

theorem State.powerOn_aud (s : State) (k : Aud) : s.powerOn.aud k = Auditorium.initial k :=
  State.aud_reset k

theorem State.softReset_aud (s : State) (k : Aud) : s.softReset.aud k = State.reset.aud k := rfl

/-- R182: a start whose table registers fail is refused. -/
theorem State.writeRunOne_refused {s : State} (hstopped : s.partState = .stopped)
    (h : tableFits (s.tableBaseHi ++ s.tableBaseLo) s.tableCount = false) : s.writeRunOne = s.setHouseFault := by
  rw [State.writeRunOne, if_pos hstopped, State.startPart_eq, h]
  rfl

/-- Settles O4: the registers are those of the reset state, whose table count 0 no start passes. -/
theorem powerOnLeavesThePartAtRest : Obligations.PowerOnLeavesThePartAtRest := by
  unfold Obligations.PowerOnLeavesThePartAtRest
  intro s
  have hunfit : tableFits (0#32 ++ 0#32) 0 = false := by decide
  have hstart : s.powerOn.writeRunOne = s.powerOn.setHouseFault := State.writeRunOne_refused rfl hunfit
  have hstatus : bit 0 false ||| bit 1 false ||| (PartState.stopped.code <<< 8) = 0 := by decide
  have hcontrol : bit 0 false ||| bit 1 false = 0 := by decide
  refine ⟨s.powerOn, rfl, rfl, rfl, congrArg some hcontrol, congrArg some hstatus, rfl, rfl, rfl, rfl, rfl, rfl, rfl, fun k => ?_, s.powerOn.setHouseFault,
    congrArg Host.Outcome.next hstart, rfl, rfl, rfl⟩
  rw [State.powerOn_aud]
  refine ⟨rfl, rfl, rfl, rfl, rfl, rfl, rfl, rfl, rfl, rfl, rfl, rfl, ?_⟩
  simp only [Auditorium.initial, DirectiveUnit.initial, ChannelSettings.initial, BitVec.toNat_ofNat]
  omega

/-- Settles O5: the soft reset is the reset state with the table registers kept. -/
theorem softResetKeepsOnlyTheTableRegisters : Obligations.SoftResetKeepsOnlyTheTableRegisters := by
  unfold Obligations.SoftResetKeepsOnlyTheTableRegisters
  intro s
  exact ⟨s.softReset, rfl, rfl, rfl, rfl, rfl, rfl, rfl, rfl, rfl, rfl, rfl, rfl, rfl, rfl, rfl, s.softReset_aud⟩

/-- The bits of a STATUS value (R179, R192). -/
theorem statusBits (notice fault : Bool) (p : PartState) :
    let v := bit 0 notice ||| bit 1 fault ||| (p.code <<< 8)
    v.getLsbD 0 = notice ∧ v.getLsbD 1 = fault
      ∧ v.toNat / 256 = (match p with | .stopped => 0 | .scanning => 1 | .running => 2 | .stopping => 3)
      ∧ v.toNat % 256 < 4 := by
  cases p <;> revert notice fault <;> decide

/-- Settles O6. -/
theorem statusReadAndNoticeEnableServeTheLatches : Obligations.StatusReadAndNoticeEnableServeTheLatches := by
  unfold Obligations.StatusReadAndNoticeEnableServeTheLatches
  refine ⟨fun s => ?_, fun v s => ?_⟩
  · obtain ⟨hnotice, hfault, hpart, hrest⟩ := statusBits s.notice s.houseFault s.partState
    refine ⟨s.statusValue, rfl, hnotice, hfault, hpart.trans ?_, hrest⟩
    cases s.partState <;> rfl
  · change Host.Outcome.next (s.setNoticeEn v) = _
    unfold State.setNoticeEn
    cases v <;> cases s.noticeEn <;> cases s.notice <;> rfl

/-- Settles O7: each offset of the window is one register's, and no other offset is. -/
theorem registerWritesStoreIgnoreOrCommand : Obligations.RegisterWritesStoreIgnoreOrCommand := by
  unfold Obligations.RegisterWritesStoreIgnoreOrCommand
  intro v s
  have hcontrol : exec (.registerWrite 0x04#8 v) s = .next (s.writeControl v) := rfl
  refine ⟨rfl, rfl, rfl, rfl, rfl, rfl, fun h => ?_, fun h => ⟨_, rfl, ?_⟩, fun o ho => ?_⟩
  · rw [hcontrol, State.writeControl, if_pos h]
    rfl
  · rw [hcontrol, State.writeControl, if_neg (by rw [h]; decide)]
    cases v.getLsbD 0 <;> rfl
  · have hnone : registerAt o = none := by
      revert o
      decide
    change Host.Outcome.next (s.writeWindow o v) = _
    rw [State.writeWindow, hnone]

/-! ## The start (R145, R182) -/

theorem tableFits_iff (base : Quad) (count : Word) :
    tableFits base count = true ↔ base.toNat % 64 = 0 ∧ 25 ≤ count.toNat ∧ count.toNat ≤ 256 := by
  simp only [tableFits, Bool.and_eq_true, beq_iff_eq, decide_eq_true_eq, and_assoc]

/-- R145: the read of one descriptor of the scan. -/
theorem State.readDescriptor_made (s : State) (i : Nat) : ∃ a : Access,
    s.readDescriptor none .showRecord (BitVec.ofNat 8 i) .startScanRead
        = { s with inFlight := s.inFlight ++ [a], nextTag := s.nextTag + 1 }
      ∧ a.tag = s.nextTag ∧ a.aud = none ∧ a.purpose = .startScanRead ∧ a.selector = BitVec.ofNat 8 i ∧ a.length = 16
      ∧ a.address = s.latchedBase + BitVec.ofNat 64 (16 * (BitVec.ofNat 8 i).toNat + 0) :=
  ⟨_, rfl, rfl, rfl, rfl, rfl, rfl, rfl⟩

/-- R145: reads of descriptors, issued one after the other, are in flight together. -/
theorem State.readDescriptors_made (l : List Nat) (s : State) : ∃ made : List Access,
    l.foldl (fun s i => s.readDescriptor none .showRecord (BitVec.ofNat 8 i) .startScanRead) s
        = { s with inFlight := s.inFlight ++ made, nextTag := s.nextTag + l.length }
      ∧ made.length = l.length
      ∧ ∀ i ∈ l, ∃ a ∈ made, s.nextTag ≤ a.tag ∧ a.aud = none ∧ a.purpose = .startScanRead
          ∧ a.selector = BitVec.ofNat 8 i ∧ a.length = 16
          ∧ a.address = s.latchedBase + BitVec.ofNat 64 (16 * (BitVec.ofNat 8 i).toNat + 0) := by
  induction l generalizing s with
  | nil => exact ⟨[], by simp, rfl, fun _ h => (nomatch h)⟩
  | cons i rest ih =>
    obtain ⟨first, hfirst, htag, hread⟩ := s.readDescriptor_made i
    obtain ⟨made, heq, hlength, hmade⟩ :=
      ih { s with inFlight := s.inFlight ++ [first], nextTag := s.nextTag + 1 }
    refine ⟨first :: made, ?_, by rw [List.length_cons, List.length_cons, hlength], fun j hj => ?_⟩
    · rw [List.foldl_cons, hfirst, heq]
      simp only [List.append_assoc, List.singleton_append, List.length_cons, Nat.add_assoc, Nat.add_comm 1]
    · obtain rfl | hj := List.mem_cons.mp hj
      · exact ⟨first, List.mem_cons_self, htag.ge, hread⟩
      · obtain ⟨a, ha, htag, h⟩ := hmade j hj
        exact ⟨a, List.mem_cons_of_mem _ ha, Nat.le_of_succ_le htag, h⟩

/-- Settles O8: a start that passes puts every block at its part-start value and issues the reads of the scan. -/
theorem startEntersScanningAndReadsTheTable : Obligations.StartEntersScanningAndReadsTheTable := by
  unfold Obligations.StartEntersScanningAndReadsTheTable
  intro s
  refine ⟨fun h => ?_, fun hstopped h => ?_, fun hstopped hbase hleast hmost => ?_⟩
  · exact congrArg Host.Outcome.next (if_neg h)
  · have hunfit : tableFits (s.tableBaseHi ++ s.tableBaseLo) s.tableCount = false := by
      rw [← Bool.not_eq_true, tableFits_iff]
      omega
    refine congrArg Host.Outcome.next ((State.writeRunOne_refused hstopped hunfit).trans ?_)
    unfold State.setHouseFault State.setNotice
    cases s.notice <;> cases s.noticeEn <;> rfl
  · have hfit := (tableFits_iff _ _).mpr ⟨hbase, hleast, hmost⟩
    have hstart : exec .partStart s = .next s.started.readAllDescriptors := by
      refine congrArg Host.Outcome.next ?_
      rw [State.writeRunOne, if_pos hstopped, State.startPart_eq, if_pos hfit]
    obtain ⟨made, heq, hlength, hmade⟩ :=
      State.readDescriptors_made ((List.range s.started.latchedCount.toNat).drop 1) s.started
    have hall : s.started.readAllDescriptors
        = { s.started with
            inFlight := s.started.inFlight ++ made
            nextTag := s.started.nextTag + ((List.range s.started.latchedCount.toNat).drop 1).length } := heq
    have hcount : s.started.latchedCount = s.tableCount := rfl
    have hflight : s.started.inFlight = s.inFlight := by simp only [State.started, State.mapAuds_inFlight]
    have htag : s.started.nextTag = s.nextTag := by simp only [State.started, State.mapAuds_nextTag]
    obtain ⟨_, _, _, hread, _⟩ := s.started.readAllDescriptors_spec
    have hauds (k : Aud) : s.started.readAllDescriptors.aud k = (s.aud k).partStart := by
      rw [hread, State.started_aud]
    refine ⟨_, hstart, by rw [hall]; rfl, by rw [hall]; rfl, by rw [hall]; rfl,
      by rw [hall]; simp only [State.started, State.mapAuds_notice],
      by rw [hall]; simp only [State.started, State.mapAuds_houseFault],
      by rw [hall]; simp only [State.started, State.mapAuds_houseTime], ?_, fun n hone hn => ?_, fun k => ?_⟩
    · rw [hall, List.length_append, hlength, hflight, List.length_drop, List.length_range, hcount]
    · obtain ⟨a, ha, hle, haud, hpurpose, hselector, hlen, haddress⟩ := hmade n (by
        rw [List.mem_drop_iff_getElem]
        exact ⟨n - 1, by rw [List.length_range, hcount]; omega, by rw [List.getElem_range]; omega⟩)
      have hbyte : (BitVec.ofNat 8 n).toNat = n := by
        rw [BitVec.toNat_ofNat]
        exact Nat.mod_eq_of_lt (by omega)
      rw [hall]
      refine ⟨a, List.mem_append_right _ ha, htag ▸ hle, haud, hpurpose, by rw [hselector, hbyte], hlen, ?_⟩
      rw [haddress, hbyte, Nat.add_zero]
    · rw [hauds]
      exact ⟨rfl, rfl, rfl, rfl, rfl, rfl, rfl, rfl, rfl, rfl, rfl, rfl, rfl, rfl⟩

/-! ## The stop (R130, R183, R184) -/

theorem Link.discardNext_eq (l : Link) :
    l.discardNext = { l with next := none, dropped := l.dropped + if l.next = none then 0 else 1 } := by
  unfold Link.discardNext
  cases h : l.next with
  | none => simp [← h]
  | some f => rfl

/-- R125: with no frame pending the link comes to rest. -/
theorem Link.advance_of_next_none {l : Link} (h : l.next = none) :
    l.advance = { l with
      state := .idle, frame := none, retry := false, retryDue := false, called := false, sent := 0
      shutDue := false, finishing := false } := by
  unfold Link.advance
  rw [h]

/-- R130: what finishing up makes of a link. -/
theorem Link.finishUp_finishesAs (l : Link) : l.FinishesAs l.finishUp := by
  have hadvance (m : Link) (hm : m.next = none) := Link.advance_of_next_none hm
  unfold Link.FinishesAs Link.finishUp
  simp only [Link.discardNext_eq]
  refine ⟨fun h => by simp only [h], ?_, ?_, fun h hdue => ?_⟩
  · rintro (⟨h, hcalled⟩ | h | h)
    · simp only [h, hcalled, if_true]
    · simp only [h]
    · simp only [h]
  · rintro (⟨h, hcalled⟩ | ⟨h, hdue⟩)
    · simp only [h, hcalled, Bool.false_eq_true, if_false, Link.countDrop]
      rw [hadvance _ rfl]
    · simp only [h, hdue, if_true, Link.countDrop]
      rw [hadvance _ rfl]
  · simp only [h, hdue, Bool.false_eq_true, if_false]
    rw [hadvance _ rfl]

/-- R184: when the stop ends, `p` being the condition of it. -/
theorem State.settleStop_stopping {s : State} (h : s.partState = .stopping) {p : Prop} [Decidable p]
    (hp : p ↔ s.inFlight = [] ∧ ∀ k, (s.aud k).link.state = .idle) :
    s.settleStop = { s with partState := if p then .stopped else .stopping } := by
  have hlinks : s.auds.all (fun a => a.link.state == .idle) = true ↔ ∀ k, (s.aud k).link.state = .idle := by
    simp only [Vector.all_eq_true, beq_iff_eq, State.aud]
    exact ⟨fun h k => h k.val k.isLt, fun h i hi => h ⟨i, hi⟩⟩
  unfold State.settleStop
  by_cases hend : s.inFlight = [] ∧ ∀ k, (s.aud k).link.state = .idle
  · rw [if_pos ⟨h, hend.1, hlinks.mpr hend.2⟩, if_pos (hp.mpr hend)]
  · rw [if_neg fun hc => hend ⟨hc.2.1, hlinks.mp hc.2.2⟩, if_neg (mt hp.mp hend), ← h]

/-! ## The end of an access -/

/-- The states in which the access `a` of `s` can end: read or written, or failed. -/
inductive State.EndsAs (s : State) (a : Access) : Bool → State → Prop
  | read (d : List Byte) :
    EndsAs s a false ((s.dropAccess a.tag).endAccess fun s => s.readDone a (a.received d))
  | write : EndsAs s a false ((s.dropAccess a.tag).endAccess fun s => s.writeDone a)
  | readFails : EndsAs s a true ((s.dropAccess a.tag).endAccess fun s => s.accessFailed a)
  | writeFails : EndsAs s a true (((s.dropAccess a.tag).withdraw a.tag).endAccess fun s => s.accessFailed a)

theorem State.overdue_iff (s : State) (a : Access) :
    s.overdue a = true ↔ a.data = [] ∧ 192 ≤ (s.houseTime - a.issued).toNat := by
  simp only [State.overdue, Access.isWrite, Bool.and_eq_true, Bool.not_not, List.isEmpty_iff, decide_eq_true_eq]
  rfl

section Ends
variable {s : State} {tag : Nat} {a : Access} (h : s.InFlightAs tag a)
include h

theorem State.InFlightAs.endRead_ok {sort : Purpose → Bool} (hsort : sort a.purpose = true) (d : List Byte) :
    s.endRead tag sort (.ok d) = (s.dropAccess tag).endAccess fun s => s.readDone a (a.received d) := by
  unfold State.endRead
  rw [State.findAccess_inFlightAs h hsort]

theorem State.InFlightAs.endRead_error {sort : Purpose → Bool} (hsort : sort a.purpose = true) :
    s.endRead tag sort .error = (s.dropAccess tag).endAccess fun s => s.accessFailed a := by
  unfold State.endRead
  rw [State.findAccess_inFlightAs h hsort]

theorem State.InFlightAs.endRead_endsAs {sort : Purpose → Bool} (hsort : sort a.purpose = true) (c : Completion) :
    s.EndsAs a (c == .error) (s.endRead tag sort c) := by
  cases c with
  | ok d => rw [h.endRead_ok hsort, ← h.tagged]; exact .read d
  | error => rw [h.endRead_error hsort, ← h.tagged]; exact .readFails

/-- A write whose turn has come ends as the host signalled it first (R142). -/
theorem State.InFlightAs.endWrite_inTurn {sort : Purpose → Bool} (hsort : sort a.purpose = true) (ok : Bool)
    (hturn : ∀ y ∈ s.inFlight, y.tag < a.tag → ¬y.CommonByte a) :
    s.endWrite tag sort ok = s.writeEnded a (a.answer.getD ok) := by
  obtain ⟨hwait, _⟩ | ⟨_, hends⟩ := State.endWrite_cases h hsort ok
  · rw [(s.mustWait_eq_false_iff a).mpr hturn] at hwait
    exact nomatch hwait
  · exact hends

theorem State.InFlightAs.endWrite_endsAs {sort : Purpose → Bool} (hsort : sort a.purpose = true) (ok : Bool)
    (hturn : ∀ y ∈ s.inFlight, y.tag < a.tag → ¬y.CommonByte a) :
    s.EndsAs a (!a.answer.getD ok) (s.endWrite tag sort ok) := by
  rw [h.endWrite_inTurn hsort ok hturn]
  unfold State.writeEnded
  cases a.answer.getD ok
  · exact .writeFails
  · exact .write

/-- R143: a read that has waited 192 house ticks gives up. -/
theorem State.InFlightAs.giveUp_overdue (hdata : a.data = []) (hold : 192 ≤ (s.houseTime - a.issued).toNat) :
    s.giveUp tag = (s.dropAccess tag).endAccess fun s => s.accessFailed a := by
  have hdue : s.overdue a = true := (s.overdue_iff a).mpr ⟨hdata, hold⟩
  have hfind : (s.inFlight.find? fun x => x.tag == tag && s.overdue x) = some a := by
    cases hf : s.inFlight.find? fun x => x.tag == tag && s.overdue x with
    | none => exact absurd (List.find?_eq_none.mp hf a h.member) (by simp [h.tagged, hdue])
    | some x =>
      have hx := List.find?_some hf
      rw [h.only x (List.mem_of_find?_eq_some hf) (by simpa using (Bool.and_eq_true_iff.mp hx).1)]
  unfold State.giveUp
  rw [hfind]

/-- Every command that ends an access ends it in one of the four ways. -/
theorem State.InFlightAs.ends {c : Instr} {failed : Bool} (hc : s.Ends a c failed) :
    ∃ t, exec c s = .next t ∧ s.EndsAs a failed t := by
  cases c with
  | entryReadComplete tag' r =>
    obtain ⟨rfl, ⟨_, _, hp⟩, rfl⟩ := hc
    exact ⟨_, rfl, h.tagged ▸ h.endRead_endsAs (by rw [hp]; rfl) r⟩
  | textReadComplete tag' r =>
    obtain ⟨rfl, ⟨_, _, hp⟩, rfl⟩ := hc
    exact ⟨_, rfl, h.tagged ▸ h.endRead_endsAs (by rw [hp]; rfl) r⟩
  | scanReadComplete tag' r =>
    obtain ⟨rfl, ⟨_, _, hp⟩, rfl⟩ := hc
    exact ⟨_, rfl, h.tagged ▸ h.endRead_endsAs (by rw [hp]; rfl) r⟩
  | lookbackReadComplete tag' r =>
    obtain ⟨rfl, ⟨_, _, hp⟩, rfl⟩ := hc
    exact ⟨_, rfl, h.tagged ▸ h.endRead_endsAs (by rw [hp]; rfl) r⟩
  | blockReadComplete tag' r =>
    obtain ⟨rfl, ⟨_, _, _, hp⟩, rfl⟩ := hc
    exact ⟨_, rfl, h.tagged ▸ h.endRead_endsAs (by rw [hp]; rfl) r⟩
  | descriptorReadComplete tag' r =>
    obtain ⟨rfl, hp, rfl⟩ := hc
    refine ⟨_, rfl, h.tagged ▸ h.endRead_endsAs ?_ r⟩
    simp only [List.mem_cons, List.not_mem_nil, or_false] at hp
    obtain hp | hp | hp := hp <;> rw [hp] <;> rfl
  | cueListHeaderReadComplete tag' r =>
    obtain ⟨rfl, hp, rfl⟩ := hc
    exact ⟨_, rfl, h.tagged ▸ h.endRead_endsAs (by rw [hp]; rfl) r⟩
  | headReadComplete tag' r =>
    obtain ⟨rfl, hp, rfl⟩ := hc
    exact ⟨_, rfl, h.tagged ▸ h.endRead_endsAs (by rw [hp]; rfl) r⟩
  | slotReadComplete tag' r =>
    obtain ⟨rfl, hp, rfl⟩ := hc
    exact ⟨_, rfl, h.tagged ▸ h.endRead_endsAs (by rw [hp]; rfl) r⟩
  | readGiveUp tag' =>
    obtain ⟨rfl, hdata, hold, rfl⟩ := hc
    refine ⟨_, rfl, ?_⟩
    rw [h.tagged, h.giveUp_overdue hdata hold, ← h.tagged]
    exact .readFails
  | writeComplete tag' ok =>
    obtain ⟨rfl, hp, rfl, hturn⟩ := hc
    refine ⟨_, rfl, h.tagged ▸ h.endWrite_endsAs ?_ ok hturn⟩
    simp only [List.mem_cons, List.not_mem_nil, or_false] at hp
    obtain hp | hp | hp | hp | hp := hp <;> rw [hp] <;> rfl
  | ackWriteComplete tag' ok =>
    obtain ⟨rfl, hp, rfl, hturn⟩ := hc
    exact ⟨_, rfl, h.tagged ▸ h.endWrite_endsAs (by rw [List.mem_singleton.mp hp]; rfl) ok hturn⟩
  | reportEntryWriteComplete tag' ok =>
    obtain ⟨rfl, hp, rfl, hturn⟩ := hc
    exact ⟨_, rfl, h.tagged ▸ h.endWrite_endsAs (by rw [List.mem_singleton.mp hp]; rfl) ok hturn⟩
  | _ => exact hc.elim

end Ends

theorem State.endAccess_stopping {s : State} (h : s.partState = .stopping) (f : State → State) :
    s.endAccess f = s.settleStop := by
  unfold State.endAccess
  rw [h]

theorem State.endAccess_running {s : State} (h : s.partState = .running) (f : State → State) :
    s.endAccess f = f s := by
  unfold State.endAccess
  rw [h]

theorem State.endAccess_scanning {s : State} (h : s.partState = .scanning) (f : State → State) :
    s.endAccess f = f s := by
  unfold State.endAccess
  rw [h]

/-- R184: of a part that is STOPPING the end of an access takes it out of what is in flight and lets the part stop. -/
theorem State.EndsAs.stopping {s t : State} {a : Access} {failed : Bool} (h : s.EndsAs a failed t)
    (hs : s.partState = .stopping) :
    t = (s.dropAccess a.tag).settleStop
      ∨ failed = true ∧ t = ((s.dropAccess a.tag).withdraw a.tag).settleStop := by
  cases h with
  | read d => exact .inl (State.endAccess_stopping (s := s.dropAccess a.tag) hs _)
  | write => exact .inl (State.endAccess_stopping (s := s.dropAccess a.tag) hs _)
  | readFails => exact .inl (State.endAccess_stopping (s := s.dropAccess a.tag) hs _)
  | writeFails => exact .inr ⟨rfl, State.endAccess_stopping (s := (s.dropAccess a.tag).withdraw a.tag) hs _⟩

theorem Access.unseeing_withdrawn (tag : Nat) (l : List Access) :
    (l.map fun a => { a with forwards := a.forwards.filter fun f => !(f.writer == tag) }).map (Access.unseeing tag)
      = l.map (Access.unseeing tag) := by
  rw [List.map_map]
  refine List.map_congr_left fun a _ => ?_
  simp only [Function.comp, Access.unseeing, List.filter_filter, bne, Bool.and_self]

/-- Settles O9: the blocks take their part-stop values, and in STOPPING an access only ends. -/
theorem stopMakesEveryShowDark : Obligations.StopMakesEveryShowDark := by
  unfold Obligations.StopMakesEveryShowDark
  refine ⟨fun s => ⟨fun hrunning => ?_, fun hscanning => ?_, fun hrest => ?_⟩, fun tag a c failed s hs ha hc => ?_⟩
  · have hstop : exec .partStop s = .next s.stoppedBlocks.settleStop := by
      refine congrArg Host.Outcome.next ?_
      rw [← State.stopRunning_eq, State.writeRunZero, hrunning]
    have hauds (k : Aud) : s.stoppedBlocks.settleStop.aud k = (s.aud k).partStop := by
      rw [State.settleStop_aud, State.stoppedBlocks_aud]
    have hflight : s.stoppedBlocks.inFlight = s.inFlight := by
      simp only [State.stoppedBlocks, State.mapAuds_inFlight]
    refine ⟨_, hstop, by rw [State.settleStop_bindings]; rfl, by rw [State.settleStop_inFlight, hflight], ?_, ?_, ?_, ?_,
      fun k => ?_⟩
    · obtain h | ⟨_, _, h⟩ := s.stoppedBlocks.settleStop_cases <;> rw [h] <;>
        simp only [State.stoppedBlocks, State.mapAuds_notice]
    · obtain h | ⟨_, _, h⟩ := s.stoppedBlocks.settleStop_cases <;> rw [h] <;>
        simp only [State.stoppedBlocks, State.mapAuds_houseFault]
    · obtain h | ⟨_, _, h⟩ := s.stoppedBlocks.settleStop_cases <;> rw [h] <;>
        simp only [State.stoppedBlocks, State.mapAuds_houseTime]
    · refine congrArg State.partState (State.settleStop_stopping (s := s.stoppedBlocks) rfl ?_)
      simp only [hflight, State.settleStop_aud]
    · rw [hauds]
      have hidle : (s.aud k).clock.toIdle.1.state = .idle ∧ (s.aud k).clock.toIdle.1.seats = (s.aud k).clock.seats := by
        unfold Clock.toIdle
        split
        · next h => exact ⟨h, rfl⟩
        · exact ⟨rfl, rfl⟩
      exact ⟨rfl, rfl, rfl, rfl, hidle.1, hidle.2, rfl, rfl, rfl, rfl, rfl, rfl, rfl, rfl, rfl, rfl, rfl, rfl, rfl, rfl,
        Link.finishUp_finishesAs _⟩
  · have hstop : exec .partStop s = .next s.endScan := by
      refine congrArg Host.Outcome.next ?_
      rw [State.writeRunZero, hscanning]
    refine ⟨_, hstop, by rw [State.endScan, State.settleStop_bindings], by rw [State.endScan, State.settleStop_inFlight],
      ?_, ?_⟩
    · obtain h | ⟨_, _, h⟩ := State.settleStop_cases { s with partState := .stopping, bindings := [] } <;>
        rw [State.endScan, h]
    · obtain h | ⟨_, _, h⟩ := State.settleStop_cases { s with partState := .stopping, bindings := [] } <;>
        rw [State.endScan, h]
      · exact .inl rfl
      · exact .inr rfl
  · refine congrArg Host.Outcome.next ?_
    obtain h | h := hrest <;> rw [State.writeRunZero, h]
  · obtain ⟨t, ht, hends⟩ := ha.ends hc
    refine ⟨t, ht, ?_⟩
    obtain rfl | ⟨rfl, rfl⟩ := hends.stopping hs
    · rw [ha.tagged]
      refine ⟨?_, ?_, fun _ => ?_⟩
      · rw [State.settleStop_inFlight]
        exact State.settleStop_stopping (s := s.dropAccess tag) hs Iff.rfl
      · rw [State.settleStop_inFlight]; rfl
      · rw [State.settleStop_inFlight]; rfl
    · rw [ha.tagged]
      refine ⟨?_, ?_, fun h => nomatch h⟩
      · rw [State.settleStop_inFlight]
        exact State.settleStop_stopping (s := (s.dropAccess tag).withdraw tag) hs
          (and_congr_left' (List.map_eq_nil_iff (l := (s.dropAccess tag).inFlight)).symm)
      · rw [State.settleStop_inFlight]
        exact Access.unseeing_withdrawn tag _

/-! ## The work of a tick (R13) -/

theorem filterMap_eq_map_filter {α β : Type} {f : α → Option β} {p : α → Bool} {g : α → β} {l : List α}
    (h : ∀ a ∈ l, f a = if p a then some (g a) else none) : l.filterMap f = (l.filter p).map g := by
  induction l with
  | nil => rfl
  | cons a rest ih =>
    have hrest := ih fun x hx => h x (List.mem_cons_of_mem a hx)
    have ha := h a List.mem_cons_self
    cases hp : p a <;> simp [hp, ha, hrest]

theorem audList_eq : audList = List.finRange 24 := List.ofFn_id 24

theorem Receiver.gapExpired_iff (r : Receiver) (h : Word) : r.gapExpired h = true
    ↔ r.state = .assembling ∧ ∃ t0 ∈ r.latestTick, 97 ≤ (h - t0).toNat := by
  unfold Receiver.gapExpired
  split
  · next t hstate htick =>
    simp only [hstate, htick, decide_eq_true_eq, true_and, Option.mem_def, Option.some.injEq, exists_eq_left']
    rfl
  · next hnot =>
    refine ⟨fun h => (nomatch h), fun ⟨hstate, t, ht, _⟩ => absurd ht (hnot t hstate)⟩

/-- Settles O2. -/
theorem idleStepPostsWorkOrPassesATick : Obligations.IdleStepPostsWorkOrPassesATick := by
  unfold Obligations.IdleStepPostsWorkOrPassesATick
  refine ⟨fun s hpending => ?_, fun s => ⟨fun a => a.answer.isSome && !s.mustWait a, fun a _ => ?_, ?_⟩⟩
  · have hstep : step s = .next s.idle := by
      unfold step
      rw [hpending]
    refine ⟨fun hwork => ?_, fun hwork => ?_⟩
    · rw [hstep, State.idle]
      cases h : s.work with
      | nil => exact absurd h hwork
      | cons c rest => rfl
    · have hidle : s.idle = s.tick := by rw [State.idle, hwork]
      rw [hstep, hidle]
      refine ⟨_, rfl, ?_, rfl, Fin.val_add _ _, ?_, ?_, ?_, ?_, ?_, fun k => s.tick_aud k⟩
      all_goals simp only [State.tick, State.mapAuds_pending, State.mapAuds_partState, State.mapAuds_inFlight,
        State.mapAuds_bindings, State.mapAuds_notice, State.mapAuds_houseFault, hpending]
  · rw [Bool.and_eq_true, Bool.not_eq_true', s.mustWait_eq_false_iff, Option.isSome_iff_ne_none]
  · have hwrites : s.inFlight.filterMap s.turnCome
        = (s.inFlight.filter fun a => a.answer.isSome && !s.mustWait a).map fun a => a.endCommand (a.answer.getD true) :=
      filterMap_eq_map_filter fun a _ => by
        unfold State.turnCome
        cases s.mustWait a <;> cases a.answer <;> rfl
    have hdirectives (k : Aud) : s.ready k
        = if s.partState = .running ∧ (s.aud k).unit.showState ≠ .dark then
            ((s.aud k).unit.batch.filter fun b => decide (b.phase = .taking)).bind fun b =>
              slotCommand k (b.slots.getD b.next [])
          else none := by
      unfold State.ready
      refine if_congr Iff.rfl ?_ rfl
      cases (s.aud k).unit.batch with
      | none => rfl
      | some b => by_cases h : b.phase = .taking <;> simp [Option.filter, h]
    have hgap (k : Aud) : (s.aud k).receiver.gapExpired s.houseTime
        = decide ((s.aud k).receiver.state = .assembling
            ∧ ∃ t0 ∈ (s.aud k).receiver.latestTick, 97 ≤ (s.houseTime - t0).toNat) := by
      rw [Bool.eq_iff_iff, Receiver.gapExpired_iff, decide_eq_true_iff]
    have hoverdue (a : Access) : s.overdue a = decide (a.data = [] ∧ 192 ≤ (s.houseTime - a.issued).toNat) := by
      rw [Bool.eq_iff_iff, s.overdue_iff, decide_eq_true_iff]
    unfold State.work
    rw [hwrites, audList_eq]
    simp only [funext hdirectives, funext hgap, funext hoverdue]
    congr 6

end Sys2Proof.Machine
end

section
/-! SUPPORT. The Timecode Receiver: hunting, assembling, validation (R1 to R10). -/

namespace Sys2Proof.Machine

/-! ## Bytes that complete no message (R1 to R4) -/

/-- A byte that completes no valid message changes the receiver alone. -/
theorem State.takeByte_silent {s : State} {k : Aud} {b : Byte} {r : Receiver}
    (h : (s.aud k).receiver.take s.houseTime b (s.aud k).clock.loop.trim = (r, none)) :
    s.takeByte k b = s.modReceiver k fun _ => r := by
  unfold State.takeByte
  rw [h]

theorem execTimecodeByteArrival_running {s : State} (h : s.partState = .running) (k : Aud) (b : Byte) :
    exec (.timecodeByteArrival k b) s = .next (s.takeByte k b) := congrArg Host.Outcome.next (if_pos h)

theorem State.modReceiver_aud (s : State) (k : Aud) (f : Receiver → Receiver) :
    (s.modReceiver k f).aud k = { s.aud k with receiver := f (s.aud k).receiver } := by
  rw [State.modReceiver_def, State.aud_modAud_same]

/-- A byte that completes no message: the receiver becomes `r`, and nothing else changes. -/
theorem execTimecodeByteArrival_silent {s : State} (hrunning : s.partState = .running) {k : Aud} {b : Byte}
    {r : Receiver} (h : (s.aud k).receiver.take s.houseTime b (s.aud k).clock.loop.trim = (r, none)) :
    ∃ t, exec (.timecodeByteArrival k b) s = .next t ∧ State.OnlyAud k s t ∧ t.inFlight = s.inFlight
      ∧ t.aud k = { s.aud k with receiver := r } := by
  refine ⟨_, execTimecodeByteArrival_running hrunning k b, ?_⟩
  rw [State.takeByte_silent h]
  exact ⟨s.onlyAud_modAud k _, rfl, s.modReceiver_aud k _⟩

theorem Receiver.take_hunting {r : Receiver} (h : r.state = .hunting) (now : Word) (b : Byte) (trim : Int) :
    r.take now b trim = (r.hunt now b, none) := by
  unfold Receiver.take
  rw [h]

theorem Receiver.hunt_sync (r : Receiver) (now : Word) : r.hunt now 0xA5#8
    = { r with state := .assembling, buffer := [0xA5#8], firstTick := some now, latestTick := some now } := if_pos rfl

theorem Receiver.hunt_other {b : Byte} (h : b ≠ 0xA5#8) (r : Receiver) (now : Word) : r.hunt now b = r := if_neg h

theorem Receiver.gapExpired_of_timely {r : Receiver} {t0 now : Word} (htick : r.latestTick = some t0)
    (h : (now - t0).toNat ≤ 96) : r.gapExpired now = false := by
  rw [← Bool.not_eq_true, r.gapExpired_iff now]
  rintro ⟨_, t, ht, hlate⟩
  obtain rfl : t = t0 := by rw [htick] at ht; exact (Option.some.inj ht).symm
  omega

section Assembling
variable {r : Receiver} {t0 : Word} (hstate : r.state = .assembling) (htick : r.latestTick = some t0)
include hstate htick

theorem Receiver.gapExpired_of_late {now : Word} (h : 97 ≤ (now - t0).toNat) : r.gapExpired now = true :=
  (r.gapExpired_iff now).mpr ⟨hstate, t0, htick, h⟩

theorem Receiver.take_late {now : Word} (h : 97 ≤ (now - t0).toNat) (b : Byte) (trim : Int) :
    r.take now b trim = (r.abandon.hunt now b, none) := by
  unfold Receiver.take
  rw [hstate, Receiver.gapExpired_of_late hstate htick h]
  rfl

theorem Receiver.take_timely {now : Word} (h : (now - t0).toNat ≤ 96) (b : Byte) (trim : Int) :
    r.take now b trim = r.append now b trim := by
  unfold Receiver.take
  rw [hstate, Receiver.gapExpired_of_timely htick h]
  rfl

end Assembling

/-- Settles O10. -/
theorem bytesAreHuntedOrAssembled : Obligations.BytesAreHuntedOrAssembled := by
  unfold Obligations.BytesAreHuntedOrAssembled
  refine fun k b s => ⟨fun h => congrArg Host.Outcome.next (if_neg h), fun hrunning hhunting => ?_,
    fun t0 hrunning hstate htick htime hlength => ?_⟩
  · obtain ⟨t, ht, honly, hflight, haud⟩ :=
      execTimecodeByteArrival_silent (b := b) hrunning (Receiver.take_hunting hhunting s.houseTime b _)
    refine ⟨t, ht, honly, hflight, haud.trans ?_⟩
    split
    · next h => rw [h, Receiver.hunt_sync]
    · next h => rw [Receiver.hunt_other h]
  · refine execTimecodeByteArrival_silent hrunning ?_
    rw [Receiver.take_timely hstate htick htime]
    unfold Receiver.append
    rw [if_neg]
    rw [List.length_append, List.length_singleton]
    omega

/-! ## Validation (R5 to R7) -/

theorem bcd_eq_some_iff (b : Byte) (n : Nat) :
    bcd b = some n ↔ (b.toNat / 16 ≤ 9 ∧ b.toNat % 16 ≤ 9) ∧ n = 10 * (b.toNat / 16) + b.toNat % 16 := by
  simp only [bcd, Option.ite_none_right_eq_some, Option.some.injEq, Nat.mul_comm 10, eq_comm (a := n)]

theorem editRate_some {b : Byte} {rate : Nat} (h : editRate b = some rate) :
    b.toNat ≤ 5 ∧ rate = [24, 25, 30, 48, 50, 60].getD b.toNat 0 := by
  unfold editRate at h
  split at h <;> simp_all

theorem serverState_some {b : Byte} {st : ServerState} (h : serverState b = some st) : 1 ≤ b.toNat ∧ b.toNat ≤ 3 := by
  unfold serverState at h
  split at h
  · omega
  · omega
  · omega
  · exact nomatch h

theorem checkBalances_iff (m : List Byte) :
    checkBalances m = true ↔ ((m.drop 1).map BitVec.toNat).sum % 256 = 0 := by
  rw [checkBalances, beq_iff_eq]

/-- A message that has a position: its rate and its four fields are in range. -/
theorem messagePosition_eq_some_iff (m : List Byte) (ticks : Nat) : messagePosition m = some ticks
    ↔ ∃ rate hours minutes seconds frame, editRate (byteAt m 2) = some rate ∧ bcd (byteAt m 3) = some hours
      ∧ bcd (byteAt m 4) = some minutes ∧ bcd (byteAt m 5) = some seconds ∧ bcd (byteAt m 6) = some frame
      ∧ (hours ≤ 23 ∧ minutes ≤ 59 ∧ seconds ≤ 59 ∧ frame < rate)
      ∧ (((hours * 60 + minutes) * 60 + seconds) * rate + frame) * ticksPerUnit rate = ticks := by
  simp only [messagePosition, Option.bind_eq_bind, Option.bind_eq_some_iff, Option.ite_none_right_eq_some,
    Option.some.injEq, exists_and_left]

theorem validate_eq_some_iff (m : List Byte) (last : Option Byte) (st : ServerState) (ticks : Nat) :
    validate m last = some (st, ticks) ↔ (checkBalances m = true ∧ last ≠ some (byteAt m 8))
      ∧ serverState (byteAt m 1) = some st ∧ messagePosition m = some ticks := by
  unfold validate
  split
  · next h =>
    split
    · next hst hticks => simp only [hst, hticks, h, Option.some.injEq, Prod.mk.injEq, true_and, not_false_eq_true, ne_eq]
    · next hnot =>
      refine ⟨fun h => (nomatch h), fun ⟨_, hst, hticks⟩ => absurd hticks (hnot _ _ hst)⟩
  · next h => exact ⟨fun h => (nomatch h), fun g => absurd g.1 h⟩

/-- R5, R6: the conditions one of which an invalid message fails. -/
theorem validate_eq_none {m : List Byte} {last : Option Byte} :
    let field := fun i => (m.getD i 0).toNat
    let digits := fun i => field i / 16 ≤ 9 ∧ field i % 16 ≤ 9
    let value := fun i => 10 * (field i / 16) + field i % 16
    (((m.drop 1).map BitVec.toNat).sum % 256 ≠ 0) ∨ last = some (m.getD 8 0) ∨ field 1 = 0 ∨ 3 < field 1 ∨ 5 < field 2
      ∨ ¬(digits 3 ∧ digits 4 ∧ digits 5 ∧ digits 6) ∨ 23 < value 3 ∨ 59 < value 4 ∨ 59 < value 5
      ∨ [24, 25, 30, 48, 50, 60].getD (field 2) 0 ≤ value 6 → validate m last = none := by
  intro field digits value hinvalid
  rw [Option.eq_none_iff_forall_ne_some]
  rintro ⟨st, ticks⟩ hsome
  obtain ⟨⟨hsum, hlast⟩, hst, hposition⟩ := (validate_eq_some_iff _ _ _ _).mp hsome
  obtain ⟨rate, hours, minutes, seconds, frame, hrate, hhours, hminutes, hseconds, hframe, hranges, _⟩ :=
    (messagePosition_eq_some_iff _ _).mp hposition
  obtain ⟨hone, hthree⟩ := serverState_some hst
  obtain ⟨hfive, rfl⟩ := editRate_some hrate
  obtain ⟨dhours, rfl⟩ := (bcd_eq_some_iff _ _).mp hhours
  obtain ⟨dminutes, rfl⟩ := (bcd_eq_some_iff _ _).mp hminutes
  obtain ⟨dseconds, rfl⟩ := (bcd_eq_some_iff _ _).mp hseconds
  obtain ⟨dframe, rfl⟩ := (bcd_eq_some_iff _ _).mp hframe
  obtain ⟨rhours, rminutes, rseconds, rframe⟩ := hranges
  rw [checkBalances_iff] at hsum
  obtain h | h | h | h | h | h | h | h | h | h := hinvalid
  · exact h hsum
  · exact hlast h
  · exact absurd h (Nat.ne_of_gt hone)
  · exact Nat.not_le_of_gt h hthree
  · exact Nat.not_le_of_gt h hfive
  · exact h ⟨dhours, dminutes, dseconds, dframe⟩
  · exact Nat.not_le_of_gt h rhours
  · exact Nat.not_le_of_gt h rminutes
  · exact Nat.not_le_of_gt h rseconds
  · exact Nat.not_lt_of_ge h rframe

/-- Settles O12. -/
theorem badAndAbandonedMessagesAreCounted : Obligations.BadAndAbandonedMessagesAreCounted := by
  unfold Obligations.BadAndAbandonedMessagesAreCounted
  intro k b t0 s hstate htick
  refine ⟨fun hrunning htime hlength hinvalid => ?_, fun hrunning hlate => ?_, fun hlate => ?_, fun htime => ?_⟩
  · refine execTimecodeByteArrival_silent hrunning ?_
    rw [Receiver.take_timely hstate htick htime]
    unfold Receiver.append Receiver.complete
    rw [if_pos (by rw [List.length_append, List.length_singleton, hlength]), validate_eq_none hinvalid]
    rfl
  · obtain ⟨t, ht, honly, hflight, haud⟩ :=
      execTimecodeByteArrival_silent (b := b) hrunning (Receiver.take_late hstate htick hlate b _)
    refine ⟨t, ht, honly, hflight, fun hb => ⟨honly, hflight, haud.trans ?_⟩, fun hb => haud.trans ?_⟩
    · rw [Receiver.hunt_other hb]
      rfl
    · rw [hb, Receiver.hunt_sync]
      rfl
  · refine ⟨s.modReceiver k Receiver.abandon,
      congrArg Host.Outcome.next (if_pos (Receiver.gapExpired_of_late hstate htick hlate)), s.onlyAud_modAud k _, rfl, ?_⟩
    rw [State.modReceiver_aud]
    rfl
  · refine congrArg Host.Outcome.next (if_neg ?_)
    rw [Receiver.gapExpired_of_timely htick htime]
    decide

end Sys2Proof.Machine
end

section
/-! SUPPORT. Reports commute with what they do not read; the Report Writer (R187) and the Emitter Link (R116 to R130). -/

namespace Sys2Proof.Machine

/-! ## Updates that a report does not read -/

/-- The update of one auditorium neither reads nor changes its Report Writer. -/
def SparesWriter (f : Auditorium → Auditorium) : Prop := ∀ a w, f { a with writer := w } = { f a with writer := w }

theorem SparesWriter.writer {f : Auditorium → Auditorium} (h : SparesWriter f) (a : Auditorium) :
    (f a).writer = a.writer := (congrArg Auditorium.writer (h a a.writer) :)

section Spares
variable {f : Auditorium → Auditorium} (s : State) (k : Aud)

theorem State.launch_modAud (j : Aud) (role : Role) (offset length : Nat) (data : List Byte) (purpose : Purpose) :
    (s.modAud k f).launch j role offset length data purpose
      = ((s.launch j role offset length data purpose).1.modAud k f,
          (s.launch j role offset length data purpose).2) := by
  unfold State.launch
  rw [State.modAud_binding]
  cases s.binding j role with
  | none => rfl
  | some b => simp only; split <;> rfl

theorem State.modWriter_modAud (h : SparesWriter f) (g : Writer → Writer) :
    (s.modAud k f).modWriter k g = (s.modWriter k g).modAud k f := by
  rw [State.modWriter_def, State.modWriter_def, State.modAud_modAud, State.modAud_modAud]
  congr 1
  funext a
  exact (congrArg (fun w => { f a with writer := g w }) (h.writer a)).trans (h a _).symm

theorem State.appendReport_modAud (h : SparesWriter f) (r : Report) :
    (s.modAud k f).appendReport k r = (s.appendReport k r).modAud k f := by
  unfold State.appendReport
  simp only [State.aud_modAud_same, h.writer, State.launch_modAud, State.modAud_houseTime]
  rcases s.launch k .reports (s.aud k).writer.offset 32
    (reportBytes (s.aud k).writer.writeCount s.houseTime k r) .reportWrite with ⟨s1, l⟩
  cases l with
  | discarded => exact s1.modWriter_modAud k h _
  | beyond => exact s1.modWriter_modAud k h _
  | made => exact s1.modWriter_modAud k h _

theorem State.report_modAud (h : SparesWriter f) (r : Report) :
    (s.modAud k f).report k r = (s.report k r).modAud k f := by
  unfold State.report
  rw [State.aud_modAud_same, h.writer, State.modAud_partState, s.appendReport_modAud k h]
  split
  · split
    · rfl
    · exact s.modWriter_modAud k h _
  · rfl

theorem State.reportAll_modAud (h : SparesWriter f) (l : List Report) :
    (s.modAud k f).reportAll k l = (s.reportAll k l).modAud k f := by
  induction l generalizing s with
  | nil => rfl
  | cons r rest ih => exact (congrArg (fun u : State => u.reportAll k rest) (s.report_modAud k h r)).trans (ih _)

end Spares

/-! ## The end of a stop -/

theorem State.settleStop_of_busy {s : State} {k : Aud} (h : (s.aud k).link.state ≠ .idle) : s.settleStop = s := by
  by_contra hne
  obtain ⟨_, _, hlinks, _⟩ := State.settleStop_stopped hne
  exact h (hlinks k)

theorem State.settleStop_partState {s : State} {p : Prop} [Decidable p]
    (hp : p ↔ s.partState = .stopping ∧ s.inFlight = [] ∧ ∀ k, (s.aud k).link.state = .idle) :
    s.settleStop.partState = if p then .stopped else s.partState := by
  by_cases h : s.partState = .stopping
  · have := State.settleStop_stopping h (p := p) (hp.trans (and_iff_right h))
    rw [this, h]
  · rw [if_neg fun g => h (hp.mp g).1]
    obtain g | ⟨g, _⟩ := s.settleStop_cases
    · rw [g]
    · exact absurd g h

theorem State.settleStop_nextTag (s : State) : s.settleStop.nextTag = s.nextTag := by
  obtain h | ⟨_, _, h⟩ := s.settleStop_cases <;> rw [h]

/-! ## The Report Writer (R187) -/

/-- Settles O40. -/
theorem reportIsAppendedOrMissed : Obligations.ReportIsAppendedOrMissed := by
  unfold Obligations.ReportIsAppendedOrMissed
  refine fun k r s hrunning => ⟨fun x hbound hroom hx hlimit => ?_, fun hfull => ?_⟩
  · have hoffset : (s.aud k).writer.offset + 32 - 1 ≤ x.limit.toNat := by
      have hmod := Nat.mod_lt (s.aud k).writer.writeCount.toNat (Nat.zero_lt_of_lt hroom)
      unfold Writer.offset
      omega
    have hreport : s.report k r = (s.throughBinding x (s.aud k).writer.offset 32
        (reportBytes (s.aud k).writer.writeCount s.houseTime k r) .reportWrite).modWriter k
          fun w => { w with writeCount := w.writeCount + 1 } := by
      obtain ⟨h, _⟩ | ⟨_, h, _⟩ | ⟨_, _, h⟩ := s.report_cases k r
      · exact absurd hrunning h
      · rw [hbound, Writer.room, decide_eq_true hroom] at h
        exact nomatch h
      · rw [h, State.appendReport]
        obtain ⟨hnone, _⟩ | ⟨b, hb, ⟨hbeyond, _⟩ | ⟨_, hmade⟩⟩ := s.launch_cases k .reports (s.aud k).writer.offset 32
          (reportBytes (s.aud k).writer.writeCount s.houseTime k r) .reportWrite
        · rw [hnone] at hx; exact nomatch hx
        · rw [hb] at hx; cases hx; omega
        · rw [hb] at hx; cases hx; simp only [hmade]
    obtain ⟨_, haud, hrole⟩ := State.binding_some hx
    refine ⟨⟨x, hx, ?_⟩, ?_, s.onlyAud_report k r⟩
    · rw [hreport]
      exact ⟨_, List.mem_append_right _ (List.mem_singleton.mpr rfl), Nat.le_refl _, rfl, congrArg some haud, hrole, rfl,
        rfl, rfl, rfl, rfl, rfl, rfl⟩
    · rw [hreport, State.modWriter_def, State.aud_modAud_same]
      rfl
  · have hreport : s.report k r = s.missReport k := by
      obtain ⟨h, _⟩ | ⟨_, _, h⟩ | ⟨_, h, _⟩ := s.report_cases k r
      · exact absurd hrunning h
      · exact h
      · simp only [Bool.and_eq_true, Writer.room, decide_eq_true_eq] at h
        obtain hf | hf := hfull
        · rw [hf] at h; exact nomatch h.1
        · omega
    rw [hreport]
    refine ⟨?_, s.onlyAud_missReport k, rfl⟩
    rw [State.missReport, State.modWriter_def, State.aud_modAud_same]

end Sys2Proof.Machine
end

section
/-! SUPPORT. The Emitter Link: each exchange said once (R117 to R126, R130), and the commands of a link. -/

namespace Sys2Proof.Machine

/-! ## What the step of a link leaves -/

section Step
variable (s : State) (k : Aud) (l : Link) (reports : List Report)

theorem State.linkStep_eq : s.linkStep k l reports
    = ((s.reportAll k reports).modAud k fun a => { a with link := l }).settleStop :=
  congrArg State.settleStop (s.reportAll_modAud (f := fun a => { a with link := l }) k (fun _ _ => rfl) reports)

theorem State.linkStep_aud : (s.linkStep k l reports).aud k
    = { s.aud k with link := l, writer := ((s.reportAll k reports).aud k).writer } := by
  rw [State.linkStep_eq, State.settleStop_aud, State.aud_modAud_same, State.reportAll_aud]

theorem State.linkStep_aud_ne {j : Aud} (h : j ≠ k) : (s.linkStep k l reports).aud j = s.aud j := by
  rw [State.linkStep_eq, State.settleStop_aud, State.aud_modAud_ne _ _ h]
  exact (s.onlyAud_reportAll k reports).others j h

theorem State.linkStep_bindings : (s.linkStep k l reports).bindings = s.bindings := by
  rw [State.linkStep_eq, State.settleStop_bindings]
  exact (s.onlyAud_reportAll k reports).bindings

theorem State.linkStep_inFlight : (s.linkStep k l reports).inFlight = (s.reportAll k reports).inFlight := by
  rw [State.linkStep_eq, State.settleStop_inFlight, State.modAud_inFlight]

theorem State.linkStep_nextTag : (s.linkStep k l reports).nextTag = (s.reportAll k reports).nextTag := by
  rw [State.linkStep_eq, State.settleStop_nextTag, State.modAud_nextTag]

/-- A link that is not IDLE holds up the end of a stop. -/
theorem State.onlyAud_linkStep (h : l.state ≠ .idle) : State.OnlyAud k s (s.linkStep k l reports) := by
  rw [State.linkStep_eq, State.settleStop_of_busy (k := k) (by rw [State.aud_modAud_same]; exact h)]
  exact (s.onlyAud_reportAll k reports).trans (State.onlyAud_modAud _ k _)

theorem State.linkStep_partState {p : Prop} [Decidable p]
    (hp : p ↔ s.partState = .stopping ∧ (s.linkStep k l reports).inFlight = []
      ∧ ∀ j, ((s.linkStep k l reports).aud j).link.state = .idle) :
    (s.linkStep k l reports).partState = if p then .stopped else s.partState := by
  have hpart : ((s.reportAll k reports).modAud k fun a => { a with link := l }).partState = s.partState :=
    (s.onlyAud_reportAll k reports).partState
  simp only [State.linkStep_eq, State.settleStop_inFlight, State.settleStop_aud] at hp ⊢
  rw [State.settleStop_partState (p := p) (by rw [hpart]; exact hp), hpart]

end Step

/-! ## The exchanges -/

section Exchanges
variable {l : Link}

/-- The pending frame comes into flight, or the link comes to rest. -/
theorem Link.advance_of_next_some {f : AirFrame} (h : l.next = some f) :
    l.advance = { l with
      state := .calling, frame := some f, next := none, retry := false, retryDue := false, called := false, sent := 0
      shutDue := false, finishing := false } := by
  unfold Link.advance
  rw [h]
  rfl

/-- R126: an unanswered drop. -/
theorem Link.unansweredDrop_eq (h : l.unanswered ≤ 50) :
    l.unansweredDrop = ({ l with
        dropped := l.dropped + 1, unanswered := min 50 (l.unanswered + 1), down := l.down || l.unanswered == 49 },
      if l.unanswered = 49 then [.linkDown] else []) := by
  have hcount : (if l.unanswered < 50 then l.unanswered + 1 else 50) = min 50 (l.unanswered + 1) := by
    split <;> omega
  unfold Link.unansweredDrop
  simp only [hcount]
  by_cases h49 : l.unanswered = 49
  · have hlt : l.unanswered < 50 ∧ min 50 (l.unanswered + 1) = 50 := by omega
    rw [if_pos hlt, if_pos h49, h49]
    simp [Link.countDrop]
  · have hlt : ¬(l.unanswered < 50 ∧ min 50 (l.unanswered + 1) = 50) := by omega
    rw [if_neg hlt, if_neg h49]
    simp [Link.countDrop, h49]

/-- R126: the frame in flight is dropped as unanswered and the pending one comes into flight. -/
theorem Link.unansweredDrop_advance (hcount : l.unanswered ≤ 50) {f : AirFrame} (hnext : l.next = some f) :
    (l.unansweredDrop.1.advance, l.unansweredDrop.2) = ({ l with
        state := .calling, frame := some f, next := none, retry := false, retryDue := false, called := false, sent := 0
        shutDue := false, finishing := false, dropped := l.dropped + 1, unanswered := min 50 (l.unanswered + 1)
        down := l.down || l.unanswered == 49 },
      if l.unanswered = 49 then [.linkDown] else []) := by
  rw [Link.unansweredDrop_eq hcount]
  exact Prod.ext (Link.advance_of_next_some hnext) rfl

section Answer
variable (hstate : l.state = .calling) (hcalled : l.called = true)
include hstate hcalled

theorem Link.answerExchange_heed : l.answerExchange 0x5A#8
    = ({ l with
        state := .sending, unanswered := 0, down := false, called := false, sent := 0, shutDue := false
        out := some 0#8 },
      if l.down then [.linkUp] else []) := by
  unfold Link.answerExchange
  rw [if_pos ⟨hstate, hcalled⟩]
  rfl

variable {b : Byte} (hb : b ≠ 0x5A#8)
include hb

theorem Link.answerExchange_other : l.answerExchange b
    = if l.finishing then (({ l with out := some 0#8 } : Link).countDrop.advance, [])
      else match l.next with
        | none => ({ l with called := false, out := some 0#8 }, [])
        | some _ => ((({ l with out := some 0#8 } : Link).unansweredDrop.1).advance,
            ({ l with out := some 0#8 } : Link).unansweredDrop.2) :=
  (if_pos ⟨hstate, hcalled⟩).trans (if_neg hb)

theorem Link.answerExchange_again (hfinishing : l.finishing = false) (hnext : l.next = none) :
    l.answerExchange b = ({ l with called := false, out := some 0#8 }, []) := by
  rw [Link.answerExchange_other hstate hcalled hb, hfinishing, hnext]
  rfl

theorem Link.answerExchange_drops (hfinishing : l.finishing = false) {f : AirFrame} (hnext : l.next = some f)
    (hcount : l.unanswered ≤ 50) : l.answerExchange b
    = ({ l with
        state := .calling, frame := some f, next := none, retry := false, retryDue := false, called := false, sent := 0
        shutDue := false, dropped := l.dropped + 1, unanswered := min 50 (l.unanswered + 1)
        down := l.down || l.unanswered == 49, out := some 0#8 },
      if l.unanswered = 49 then [.linkDown] else []) := by
  have hdrop := Link.unansweredDrop_advance (l := { l with out := some 0#8 }) hcount hnext
  rw [Link.answerExchange_other hstate hcalled hb]
  rw [hfinishing, hnext] at hdrop ⊢
  exact hdrop

theorem Link.answerExchange_finishes (hfinishing : l.finishing = true) :
    l.answerExchange b = (({ l with out := some 0#8 } : Link).countDrop.advance, []) := by
  rw [Link.answerExchange_other hstate hcalled hb, hfinishing]
  rfl

end Answer

/-- R120, R126: what the answer to a CALL makes the link report. -/
theorem Link.answerExchange_reports (hstate : l.state = .calling) (hcalled : l.called = true)
    (hcount : l.unanswered ≤ 50) (b : Byte) :
    (l.answerExchange b).2 = if b = 0x5A#8 then (if l.down then [.linkUp] else [])
      else if l.finishing = false ∧ l.next ≠ none ∧ l.unanswered = 49 then [.linkDown] else [] := by
  by_cases hb : b = 0x5A#8
  · rw [if_pos hb, hb, Link.answerExchange_heed hstate hcalled]
  · rw [if_neg hb]
    cases hfinishing : l.finishing with
    | true => rw [Link.answerExchange_finishes hstate hcalled hb hfinishing]; simp
    | false =>
      cases hnext : l.next with
      | none => rw [Link.answerExchange_again hstate hcalled hb hfinishing hnext]; simp
      | some f => rw [Link.answerExchange_drops hstate hcalled hb hfinishing hnext hcount]; simp

theorem Link.answerExchange_busy (hstate : l.state = .calling) (hcalled : l.called = true)
    (hcount : l.unanswered ≤ 50) (hfinishing : l.finishing = false) (b : Byte) :
    (l.answerExchange b).1.state ≠ .idle := by
  by_cases hb : b = 0x5A#8
  · rw [hb, Link.answerExchange_heed hstate hcalled]; exact fun h => nomatch h
  · cases hnext : l.next with
    | none => rw [Link.answerExchange_again hstate hcalled hb hfinishing hnext, hstate]; exact fun h => nomatch h
    | some f => rw [Link.answerExchange_drops hstate hcalled hb hfinishing hnext hcount]; exact fun h => nomatch h

/-- R121, R130: the frame has had its last exchange. -/
theorem Link.toWaiting_waits (h : l.finishing = false) :
    l.toWaiting = { l with state := .waiting, retryDue := false, sent := 0, shutDue := false } := by
  unfold Link.toWaiting
  rw [h]
  rfl

theorem Link.toWaiting_finishes (h : l.finishing = true) : l.toWaiting = l.advance := if_pos h

section Verdict
variable (hstate : l.state = .awaitingVerdict)
include hstate

theorem Link.verdictExchange_taken :
    l.verdictExchange 0x25#8 = (({ l with out := some 0#8 } : Link).toWaiting, []) := by
  unfold Link.verdictExchange
  rw [if_pos hstate]
  rfl

theorem Link.verdictExchange_checkFailed :
    l.verdictExchange 0x2B#8 = (({ l with out := some 0#8 } : Link).checkFailed, []) := by
  unfold Link.verdictExchange
  rw [if_pos hstate]
  rfl

theorem Link.verdictExchange_refused :
    l.verdictExchange 0x2D#8 = (({ l with out := some 0#8 } : Link).countDrop.toWaiting, []) := by
  unfold Link.verdictExchange
  rw [if_pos hstate]
  rfl

variable {b : Byte} (hb : b ∉ [0x25#8, 0x2B#8, 0x2D#8])
include hb

theorem Link.verdictExchange_other : l.verdictExchange b
    = if l.finishing then (({ l with out := some 0#8 } : Link).countDrop.advance, [])
      else match l.next with
        | none => ({ l with out := some 0#8 }, [])
        | some _ => ((({ l with out := some 0#8 } : Link).unansweredDrop.1).advance,
            ({ l with out := some 0#8 } : Link).unansweredDrop.2) := by
  simp only [List.mem_cons, List.not_mem_nil, or_false, not_or] at hb
  obtain ⟨htaken, hfailed, hrefused⟩ := hb
  exact (if_pos hstate).trans ((if_neg htaken).trans ((if_neg hfailed).trans (if_neg hrefused)))

theorem Link.verdictExchange_again (hfinishing : l.finishing = false) (hnext : l.next = none) :
    l.verdictExchange b = ({ l with out := some 0#8 }, []) := by
  rw [Link.verdictExchange_other hstate hb, hfinishing, hnext]
  rfl

theorem Link.verdictExchange_drops (hfinishing : l.finishing = false) {f : AirFrame} (hnext : l.next = some f)
    (hcount : l.unanswered ≤ 50) : l.verdictExchange b
    = ({ l with
        state := .calling, frame := some f, next := none, retry := false, retryDue := false, called := false, sent := 0
        shutDue := false, dropped := l.dropped + 1, unanswered := min 50 (l.unanswered + 1)
        down := l.down || l.unanswered == 49, out := some 0#8 },
      if l.unanswered = 49 then [.linkDown] else []) := by
  have hdrop := Link.unansweredDrop_advance (l := { l with out := some 0#8 }) hcount hnext
  rw [Link.verdictExchange_other hstate hb]
  rw [hfinishing, hnext] at hdrop ⊢
  exact hdrop

theorem Link.verdictExchange_finishes (hfinishing : l.finishing = true) :
    l.verdictExchange b = (({ l with out := some 0#8 } : Link).countDrop.advance, []) := by
  rw [Link.verdictExchange_other hstate hb, hfinishing]
  rfl

end Verdict

/-- R124: a CHECK_FAILED of a first attempt with no frame pending makes a retry due. -/
theorem Link.checkFailed_retries (hfinishing : l.finishing = false) (hretry : l.retry = false) (hnext : l.next = none) :
    l.checkFailed = { l with state := .waiting, retryDue := true, retry := true, retries := l.retries + 1 } := by
  unfold Link.checkFailed
  rw [hfinishing, hretry, hnext]
  rfl

theorem Link.checkFailed_drops (h : l.retry = true ∨ l.next ≠ none ∨ l.finishing = true) :
    l.checkFailed = l.countDrop.toWaiting := by
  unfold Link.checkFailed
  refine if_neg fun ⟨hnext, hretry, hfinishing⟩ => ?_
  simp only [Bool.not_eq_true'] at hretry hfinishing
  obtain h | h | h := h
  · rw [hretry] at h; exact nomatch h
  · exact h hnext
  · rw [hfinishing] at h; exact nomatch h

/-- R130: the frame is dropped and counted; the link waits, or goes on at once where it finishes. -/
theorem Link.countDrop_toWaiting (l : Link) :
    (l.finishing = false → l.countDrop.toWaiting
        = { l with state := .waiting, retryDue := false, sent := 0, shutDue := false, dropped := l.dropped + 1 })
      ∧ (l.finishing = true → l.next = none → l.countDrop.toWaiting = { l with
        state := .idle, frame := none, retry := false, retryDue := false, called := false, sent := 0
        shutDue := false, finishing := false, dropped := l.dropped + 1 })
      ∧ (∀ g, l.finishing = true → l.next = some g → l.countDrop.toWaiting = { l with
        state := .calling, frame := some g, next := none, retry := false, retryDue := false, called := false
        sent := 0, shutDue := false, finishing := false, dropped := l.dropped + 1 }) :=
  ⟨fun h => Link.toWaiting_waits (l := l.countDrop) h,
    fun h hnext => (Link.toWaiting_finishes (l := l.countDrop) h).trans
      (Link.advance_of_next_none (l := l.countDrop) hnext),
    fun _ h hnext => (Link.toWaiting_finishes (l := l.countDrop) h).trans
      (Link.advance_of_next_some (l := l.countDrop) hnext)⟩

section Send
variable (hstate : l.state = .sending)
include hstate

theorem Link.sendExchange_shut (hshut : l.shutDue = true) (b : Byte) :
    l.sendExchange b = ({ l with out := some 0xFD#8 } : Link).countDrop.toWaiting :=
  (if_pos hstate).trans (if_pos hshut)

variable (hshut : l.shutDue = false) {b : Byte}
include hshut

/-- R121: an exchange without SHUT, its byte driven. -/
theorem Link.sendExchange_drives (b : Byte) : l.sendExchange b
    = if b = 0x2D#8 ∧ l.sent ≠ 0 then
        if l.stream.length ≤ l.sent + 1 then
          ({ l with out := some (l.stream.getD l.sent 0), sent := l.sent + 1 } : Link).countDrop.toWaiting
        else { l with out := some (l.stream.getD l.sent 0), sent := l.sent + 1, shutDue := true }
      else if l.stream.length ≤ l.sent + 1 then
        { l with out := some (l.stream.getD l.sent 0), state := .awaitingVerdict, sent := 0 }
      else { l with out := some (l.stream.getD l.sent 0), sent := l.sent + 1 } :=
  (if_pos hstate).trans (if_neg (by rw [hshut]; decide))

end Send

section Wait
variable (hstate : l.state = .waiting)
include hstate

theorem Link.waitExchange_wait : l.waitExchange 0#8 = { l with out := some 0#8 } := if_pos hstate

section Ends
variable {b : Byte} (hb : b ≠ 0#8)
include hb

theorem Link.waitExchange_retries (hdue : l.retryDue = true) : l.waitExchange b
    = { l with state := .calling, retryDue := false, called := false, sent := 0, out := some 0#8 } :=
  (if_pos hstate).trans ((if_neg hb).trans (if_pos hdue))

theorem Link.waitExchange_flies (hdue : l.retryDue = false) {f : AirFrame} (hnext : l.next = some f) :
    l.waitExchange b = { l with
      state := .calling, frame := some f, next := none, retry := false, retryDue := false, called := false, sent := 0
      shutDue := false, finishing := false, out := some 0#8 } :=
  (if_pos hstate).trans ((if_neg hb).trans ((if_neg (by rw [hdue]; decide)).trans
    (Link.advance_of_next_some (l := { l with out := some 0#8 }) hnext)))

theorem Link.waitExchange_rests (hdue : l.retryDue = false) (hnext : l.next = none) :
    l.waitExchange b = { l with
      state := .idle, frame := none, retry := false, retryDue := false, called := false, sent := 0
      shutDue := false, finishing := false, out := some 0#8 } :=
  (if_pos hstate).trans ((if_neg hb).trans ((if_neg (by rw [hdue]; decide)).trans
    (Link.advance_of_next_none (l := { l with out := some 0#8 }) hnext)))

end Ends

/-- The end of a wait drops nothing and answers nothing. -/
theorem Link.waitExchange_counts (b : Byte) :
    (l.waitExchange b).dropped = l.dropped ∧ (l.waitExchange b).unanswered = l.unanswered := by
  by_cases hb : b = 0#8
  · rw [hb, Link.waitExchange_wait hstate]; exact ⟨rfl, rfl⟩
  · cases hdue : l.retryDue with
    | true => rw [Link.waitExchange_retries hstate hb hdue]; exact ⟨rfl, rfl⟩
    | false =>
      cases hnext : l.next with
      | none => rw [Link.waitExchange_rests hstate hb hdue hnext]; exact ⟨rfl, rfl⟩
      | some f => rw [Link.waitExchange_flies hstate hb hdue hnext]; exact ⟨rfl, rfl⟩

end Wait

end Exchanges

/-! ## The commands -/

/-- Settles O22. -/
theorem callLatchesSettingsAndWaitEnds : Obligations.CallLatchesSettingsAndWaitEnds := by
  unfold Obligations.CallLatchesSettingsAndWaitEnds
  refine ⟨fun k s hstate hcalled hfinishing => ⟨_, rfl, ?_⟩, fun k s hfinishing => ⟨_, rfl, ?_⟩,
    fun k b s hstate => ⟨_, rfl, ?_⟩⟩
  · have hcall : (s.aud k).link.callExchange (s.aud k).unit.channels
        = { (s.aud k).link with
            address := (s.aud k).unit.channels.address, checkOn := (s.aud k).unit.channels.checkOn, called := true
            out := some (tokenCall (s.aud k).unit.channels.address) } := by
      unfold Link.callExchange
      rw [if_pos ⟨hstate, by rw [hcalled]; rfl, by rw [hfinishing]; rfl⟩]
    have htoken (a : BitVec 6) : tokenCall a = BitVec.ofNat 8 (0xC0 + a.toNat) := by
      revert a; decide
    rw [hcall]
    refine ⟨s.onlyAud_linkStep k _ [] (by rw [hstate]; decide), s.linkStep_inFlight k _ [], ?_⟩
    rw [State.linkStep_aud, htoken]
    rfl
  · have hcall : (s.aud k).link.callExchange (s.aud k).unit.channels = (s.aud k).link := by
      unfold Link.callExchange
      rw [if_neg fun h => by rw [hfinishing] at h; exact nomatch h.2.2]
    rw [hcall]
    refine ⟨fun j => ?_, s.linkStep_inFlight k _ []⟩
    by_cases h : j = k
    · rw [h, State.linkStep_aud]; rfl
    · exact s.linkStep_aud_ne k _ [] h
  · have haud : (s.linkStep k ((s.aud k).link.waitExchange b) []).aud k
        = { s.aud k with link := (s.aud k).link.waitExchange b } := s.linkStep_aud k _ []
    rw [haud]
    refine ⟨rfl, fun j hj => s.linkStep_aud_ne k _ [] hj, s.linkStep_inFlight k _ [], s.linkStep_bindings k _ [],
      fun hb => ?_, fun hb hdue => ?_, fun f hb hdue hf => ?_, fun hb hdue hf => ?_, Link.waitExchange_counts hstate b⟩
    · rw [hb]
      exact Link.waitExchange_wait hstate
    · simp only [Link.waitExchange_retries hstate hb hdue, and_self]
    · simp only [Link.waitExchange_flies hstate hb hdue hf, and_self]
    · simp only [Link.waitExchange_rests hstate hb hdue hf, and_self]

/-- Settles O23. -/
theorem answerSendsCallsAgainOrDrops : Obligations.AnswerSendsCallsAgainOrDrops := by
  unfold Obligations.AnswerSendsCallsAgainOrDrops
  intro k b s hstate hcalled hcount held
  rw [← Link.answerExchange_reports hstate hcalled hcount b]
  intro told
  have haud := s.linkStep_aud k (held.answerExchange b).1 (held.answerExchange b).2
  refine ⟨_, rfl, fun h => s.onlyAud_linkStep k _ _ (Link.answerExchange_busy hstate hcalled hcount h b), ?_,
    s.linkStep_inFlight k _ _, s.linkStep_nextTag k _ _,
    fun j hj => s.linkStep_aud_ne k _ _ hj, s.linkStep_bindings k _ _, fun hb => ?_, fun hb hfinishing hnext => ?_,
    fun f hb hfinishing hnext => ?_, fun hb hfinishing hnext => ?_, fun f hb hfinishing hnext => ?_,
    fun _ => s.linkStep_partState k _ _ Iff.rfl⟩
  · rw [haud]
  · rw [haud, hb, Link.answerExchange_heed hstate hcalled]
  · rw [haud, Link.answerExchange_again hstate hcalled hb hfinishing hnext]
  · rw [haud, Link.answerExchange_drops hstate hcalled hb hfinishing hnext hcount, ← hstate]
  · rw [haud, Link.answerExchange_finishes hstate hcalled hb hfinishing]
    dsimp only
    rw [Link.advance_of_next_none (l := Link.countDrop { held with out := some 0#8 }) hnext]
    rfl
  · rw [haud, Link.answerExchange_finishes hstate hcalled hb hfinishing]
    dsimp only
    rw [Link.advance_of_next_some (l := Link.countDrop { held with out := some 0#8 }) (f := f) hnext, ← hstate]
    rfl

theorem Link.stream_of_frame {l : Link} {f : AirFrame} (h : l.frame = some f) : l.stream
    = (if l.retry then 0xF5#8 else 0xF6#8) :: f.bytes
      ++ (if l.checkOn then [(crc f.bytes).extractLsb' 0 8, (crc f.bytes).extractLsb' 8 8] else []) := by
  unfold Link.stream
  rw [h]
  rfl

theorem Link.sendExchange_busy {l : Link} (hstate : l.state = .sending) (hfinishing : l.finishing = false) (b : Byte) :
    (l.sendExchange b).state ≠ .idle := by
  have hdrop (m : Link) (h : m.finishing = false) : m.countDrop.toWaiting.state ≠ .idle := by
    rw [(Link.countDrop_toWaiting m).1 h]; exact fun h => nomatch h
  cases hshut : l.shutDue with
  | true => rw [Link.sendExchange_shut hstate hshut]; exact hdrop _ hfinishing
  | false =>
    rw [Link.sendExchange_drives hstate hshut]
    split
    · split
      · exact hdrop _ hfinishing
      · exact fun h => nomatch hstate.symm.trans h
    · split
      · exact fun h => nomatch h
      · exact fun h => nomatch hstate.symm.trans h

/-- Settles O24. -/
theorem sendingDrivesTheFrameInOrder : Obligations.SendingDrivesTheFrameInOrder := by
  unfold Obligations.SendingDrivesTheFrameInOrder
  intro k b f s hstate hframe held line drive dropping
  have hline : held.stream = line := Link.stream_of_frame hframe
  have haud : (s.linkStep k (held.sendExchange b) []).aud k = { s.aud k with link := held.sendExchange b } :=
    s.linkStep_aud k _ []
  have hlink : ((s.linkStep k ((s.aud k).link.sendExchange b) []).aud k).link = held.sendExchange b :=
    congrArg Auditorium.link haud
  have hbusy (h : held.finishing = false) := s.onlyAud_linkStep k _ [] (Link.sendExchange_busy hstate h b)
  have hothers (j : Aud) (hj : j ≠ k) := s.linkStep_aud_ne k (held.sendExchange b) [] hj
  refine ⟨fun hshut hsent => ⟨_, rfl, s.linkStep_inFlight k _ [], by rw [haud], hothers, hbusy, ?_⟩,
    fun hshut => ⟨_, rfl, s.linkStep_inFlight k _ [], by rw [haud], hothers, hbusy, ?_⟩⟩
  · have hdrives := hlink.trans (Link.sendExchange_drives (l := held) hstate hshut b)
    rw [hline] at hdrives
    refine ⟨fun hb hmore => hdrives.trans ?_, fun hb hlast => hdrives.trans ?_, fun hb hnot hmore => hdrives.trans ?_,
      fun hb hnot hlast => ?_⟩
    · exact (if_neg fun h => hb.elim (fun g => g h.1) h.2).trans (if_neg (by omega))
    · exact (if_neg fun h => hb.elim (fun g => g h.1) h.2).trans (if_pos (by omega))
    · exact (if_pos ⟨hb, Nat.ne_of_gt hnot⟩).trans (if_neg (by omega))
    · simp only [dropping, hdrives.trans ((if_pos ⟨hb, Nat.ne_of_gt hnot⟩).trans (if_pos (by omega)))]
      exact Link.countDrop_toWaiting { held with out := drive, sent := held.sent + 1 }
  · simp only [dropping, hlink.trans (Link.sendExchange_shut hstate hshut b)]
    exact Link.countDrop_toWaiting { held with out := some 0xFD#8 }

section Verdict
variable {l : Link} (hstate : l.state = .awaitingVerdict)
include hstate

/-- R123, R130: the verdict of a link that finishes ends its frame, dropped but for a TAKEN. -/
theorem Link.verdictExchange_ends (hfinishing : l.finishing = true) (b : Byte) : l.verdictExchange b
    = (({ l with out := some 0#8, dropped := l.dropped + if b = 0x25#8 then 0 else 1 } : Link).advance, []) := by
  have hdrop : ({ l with out := some 0#8 } : Link).countDrop.toWaiting
      = ({ l with out := some 0#8, dropped := l.dropped + 1 } : Link).advance :=
    Link.toWaiting_finishes (l := ({ l with out := some 0#8 } : Link).countDrop) hfinishing
  by_cases hother : b ∈ [0x25#8, 0x2B#8, 0x2D#8]
  · simp only [List.mem_cons, List.not_mem_nil, or_false] at hother
    obtain rfl | rfl | rfl := hother
    · rw [Link.verdictExchange_taken hstate, Link.toWaiting_finishes (l := { l with out := some 0#8 }) hfinishing]
      simp
    · rw [Link.verdictExchange_checkFailed hstate,
        Link.checkFailed_drops (l := { l with out := some 0#8 }) (.inr (.inr hfinishing)), hdrop]
      rfl
    · rw [Link.verdictExchange_refused hstate, hdrop]
      rfl
  · rw [Link.verdictExchange_finishes hstate hother hfinishing, if_neg fun h => hother (by rw [h]; decide)]
    rfl

theorem Link.verdictExchange_reports (hcount : l.unanswered ≤ 50) (b : Byte) : (l.verdictExchange b).2
    = if b ∉ [0x25#8, 0x2B#8, 0x2D#8] ∧ l.finishing = false ∧ l.next ≠ none ∧ l.unanswered = 49 then [.linkDown]
      else [] := by
  cases hfinishing : l.finishing with
  | true => rw [Link.verdictExchange_ends hstate hfinishing]; simp
  | false =>
    by_cases hother : b ∈ [0x25#8, 0x2B#8, 0x2D#8]
    · rw [if_neg fun h => h.1 hother]
      simp only [List.mem_cons, List.not_mem_nil, or_false] at hother
      obtain rfl | rfl | rfl := hother
      · rw [Link.verdictExchange_taken hstate]
      · rw [Link.verdictExchange_checkFailed hstate]
      · rw [Link.verdictExchange_refused hstate]
    · cases hnext : l.next with
      | none => rw [Link.verdictExchange_again hstate hother hfinishing hnext]; simp
      | some f => rw [Link.verdictExchange_drops hstate hother hfinishing hnext hcount]; simp [hother]

end Verdict

/-- R124: a verdict but the first CHECK_FAILED, of a link that does not finish, drops the frame. -/
theorem Link.countDrop_waits {l : Link} (hfinishing : l.finishing = false) :
    l.countDrop.toWaiting
      = { l with state := .waiting, retryDue := false, sent := 0, shutDue := false, dropped := l.dropped + 1 } :=
  (Link.countDrop_toWaiting l).1 hfinishing

theorem Link.verdictExchange_busy {l : Link} (hstate : l.state = .awaitingVerdict) (hfinishing : l.finishing = false)
    (hcount : l.unanswered ≤ 50) (b : Byte) : (l.verdictExchange b).1.state ≠ .idle := by
  have hdrop : ({ l with out := some 0#8 } : Link).countDrop.toWaiting.state ≠ .idle := by
    rw [Link.countDrop_waits (l := { l with out := some 0#8 }) hfinishing]; exact fun h => nomatch h
  by_cases hother : b ∈ [0x25#8, 0x2B#8, 0x2D#8]
  · simp only [List.mem_cons, List.not_mem_nil, or_false] at hother
    obtain rfl | rfl | rfl := hother
    · rw [Link.verdictExchange_taken hstate, Link.toWaiting_waits (l := { l with out := some 0#8 }) hfinishing]
      exact fun h => nomatch h
    · rw [Link.verdictExchange_checkFailed hstate]
      unfold Link.checkFailed
      split
      · exact fun h => nomatch h
      · exact hdrop
    · rw [Link.verdictExchange_refused hstate]
      exact hdrop
  · cases hnext : l.next with
    | none =>
      rw [Link.verdictExchange_again hstate hother hfinishing hnext]
      exact fun h => nomatch hstate.symm.trans h
    | some f => rw [Link.verdictExchange_drops hstate hother hfinishing hnext hcount]; exact fun h => nomatch h

/-- Settles O25. -/
theorem verdictWaitsRetriesOrDrops : Obligations.VerdictWaitsRetriesOrDrops := by
  unfold Obligations.VerdictWaitsRetriesOrDrops
  intro k b s hstate hcount held other
  rw [← Link.verdictExchange_reports hstate hcount b]
  intro told waits
  have haud := s.linkStep_aud k (held.verdictExchange b).1 (held.verdictExchange b).2
  have hlink : ((s.linkStep k ((s.aud k).link.verdictExchange b).1 ((s.aud k).link.verdictExchange b).2).aud k).link
      = (held.verdictExchange b).1 := congrArg Auditorium.link haud
  refine ⟨_, rfl, fun h => s.onlyAud_linkStep k _ _ (Link.verdictExchange_busy hstate h hcount b),
    fun j hj => s.linkStep_aud_ne k _ _ hj, s.linkStep_bindings k _ _, ?_, s.linkStep_inFlight k _ _,
    s.linkStep_nextTag k _ _, fun hfinishing => ?_, fun hfinishing => ⟨?_, ?_⟩⟩
  · rw [haud]
  · rw [hlink]
    refine ⟨fun hb => ?_, fun hb hretry hnext => ?_, fun hb => ?_, fun hb hnext => ?_, fun f hb hnext => ?_⟩
    · rw [hb, Link.verdictExchange_taken hstate, Link.toWaiting_waits (l := { held with out := some 0#8 }) hfinishing]
      simp only [waits, Bool.or_false]
    · rw [hb, Link.verdictExchange_checkFailed hstate,
        Link.checkFailed_retries (l := { held with out := some 0#8 }) hfinishing hretry hnext]
      simp only [waits, Bool.or_true]
    · have hdrops : (held.verdictExchange b).1 = ({ held with out := some 0#8 } : Link).countDrop.toWaiting := by
        obtain rfl | ⟨rfl, h⟩ := hb
        · rw [Link.verdictExchange_refused hstate]
        · rw [Link.verdictExchange_checkFailed hstate]
          exact Link.checkFailed_drops (l := { held with out := some 0#8 }) (h.imp_right .inl)
      rw [hdrops, Link.countDrop_waits (l := { held with out := some 0#8 }) hfinishing]
      simp only [waits, Bool.or_false]
    · rw [Link.verdictExchange_again hstate hb hfinishing hnext]
    · rw [Link.verdictExchange_drops hstate hb hfinishing hnext hcount]
  · rw [hlink, Link.verdictExchange_ends hstate hfinishing]
    exact ⟨fun hnext => Link.advance_of_next_none
        (l := { held with out := some 0#8, dropped := held.dropped + if b = 0x25#8 then 0 else 1 }) hnext,
      fun f hnext => Link.advance_of_next_some
        (l := { held with out := some 0#8, dropped := held.dropped + if b = 0x25#8 then 0 else 1 }) hnext⟩
  · refine s.linkStep_partState k _ _ ?_
    have hflight : (s.linkStep k (held.verdictExchange b).1 (held.verdictExchange b).2).inFlight = s.inFlight := by
      rw [State.linkStep_inFlight, Link.verdictExchange_ends hstate hfinishing]
      rfl
    rw [hflight]

end Sys2Proof.Machine
end

section
/-! SUPPORT. What the work of one auditorium issues, what its Report Writer hears, and updates that commute with what a
Sequencer sends (R52, R140, R187). -/

namespace Sys2Proof.Machine

/-! ## The accesses that are issued (R140) -/

/-- The access was issued from `s` on, through the binding that `s` holds for auditorium `k`. -/
structure Access.Through (s : State) (k : Aud) (a : Access) : Prop where
  tag : s.nextTag ≤ a.tag
  issued : a.issued = s.houseTime
  aud : a.aud = some k
  binding : ∃ x, s.binding k a.role = some x ∧ a.selector = x.selector ∧ a.epoch = x.epoch
    ∧ a.address = x.base + BitVec.ofNat 64 a.offset

/-- Between `s` and `t` exactly the accesses `made` were issued, each through a binding of auditorium `k`. -/
structure State.Makes (k : Aud) (s t : State) (made : List Access) : Prop where
  inFlight : t.inFlight = s.inFlight ++ made
  nextTag : s.nextTag ≤ t.nextTag
  houseTime : t.houseTime = s.houseTime
  bindings : t.bindings = s.bindings
  through : ∀ a ∈ made, a.Through s k

theorem State.binding_congr {s t : State} (h : t.bindings = s.bindings) (k : Aud) (role : Role) :
    t.binding k role = s.binding k role := by unfold State.binding; rw [h]

theorem State.Makes.none {k : Aud} {s t : State} (hflight : t.inFlight = s.inFlight) (htag : t.nextTag = s.nextTag)
    (htime : t.houseTime = s.houseTime) (hbindings : t.bindings = s.bindings) : State.Makes k s t [] :=
  ⟨by rw [hflight, List.append_nil], Nat.le_of_eq htag.symm, htime, hbindings, fun _ h => nomatch h⟩

theorem State.Makes.refl (k : Aud) (s : State) : State.Makes k s s [] := .none rfl rfl rfl rfl

theorem State.makes_modAud (s : State) (k j : Aud) (f : Auditorium → Auditorium) :
    State.Makes k s (s.modAud j f) [] := .none rfl rfl rfl rfl

theorem Access.Through.before {s t : State} {k : Aud} {a : Access} (htag : s.nextTag ≤ t.nextTag)
    (htime : t.houseTime = s.houseTime) (hbindings : t.bindings = s.bindings) (h : a.Through t k) : a.Through s k where
  tag := Nat.le_trans htag h.tag
  issued := h.issued.trans htime
  aud := h.aud
  binding := by rw [← State.binding_congr hbindings]; exact h.binding

theorem State.Makes.trans {k : Aud} {s t u : State} {m n : List Access} (h : State.Makes k s t m)
    (g : State.Makes k t u n) : State.Makes k s u (m ++ n) where
  inFlight := by rw [g.inFlight, h.inFlight, List.append_assoc]
  nextTag := Nat.le_trans h.nextTag g.nextTag
  houseTime := g.houseTime.trans h.houseTime
  bindings := g.bindings.trans h.bindings
  through := fun a ha => (List.mem_append.mp ha).elim (h.through a) fun hn =>
    (g.through a hn).before h.nextTag h.houseTime h.bindings

theorem State.Makes.then_modAud {k j : Aud} {s t : State} {m : List Access} (h : State.Makes k s t m)
    (f : Auditorium → Auditorium) : State.Makes k s (t.modAud j f) m :=
  ⟨h.inFlight, h.nextTag, h.houseTime, h.bindings, h.through⟩

theorem State.Makes.of_modAud {k j : Aud} {s t : State} {m : List Access} {f : Auditorium → Auditorium}
    (h : State.Makes k (s.modAud j f) t m) : State.Makes k s t m :=
  ⟨h.inFlight, h.nextTag, h.houseTime, h.bindings, fun a ha =>
    (h.through a ha).before (s := s) (t := s.modAud j f) (Nat.le_refl _) rfl rfl⟩

theorem State.makes_throughBinding {s : State} {k : Aud} {role : Role} {x : Binding} (hx : s.binding k role = some x)
    (offset length : Nat) (data : List Byte) (purpose : Purpose) : ∃ a, State.Makes k s
      (s.throughBinding x offset length data purpose) [a] ∧ a.role = role ∧ a.offset = offset ∧ a.length = length
        ∧ a.data = data ∧ a.purpose = purpose ∧ a.tag = s.nextTag := by
  obtain ⟨_, haud, hrole⟩ := State.binding_some hx
  refine ⟨_, ⟨rfl, Nat.le_succ _, rfl, rfl, fun a ha => ?_⟩, hrole, rfl, rfl, rfl, rfl, rfl⟩
  rw [List.mem_singleton.mp ha]
  exact ⟨Nat.le_refl _, rfl, congrArg some haud, x, by rw [hrole]; exact hx, rfl, rfl, rfl⟩

/-- The write of a report entry (R187). -/
def Access.IsReport (a : Access) : Prop := a.role = .reports ∧ a.purpose = .reportWrite

theorem State.makes_report (s : State) (k : Aud) (r : Report) :
    ∃ made, State.Makes k s (s.report k r) made ∧ ∀ a ∈ made, a.IsReport := by
  have hnone (t : State) : State.Makes k t (t.missReport k) [] := by
    rw [State.missReport, State.modWriter_def]
    exact t.makes_modAud k k _
  obtain ⟨_, h⟩ | ⟨_, _, h⟩ | ⟨_, _, h⟩ := s.report_cases k r <;> rw [h]
  · exact ⟨[], .refl k s, fun _ h => nomatch h⟩
  · exact ⟨[], hnone s, fun _ h => nomatch h⟩
  · unfold State.appendReport
    obtain ⟨_, h⟩ | ⟨x, hx, ⟨_, h⟩ | ⟨_, h⟩⟩ := s.launch_cases k .reports (s.aud k).writer.offset 32
      (reportBytes (s.aud k).writer.writeCount s.houseTime k r) .reportWrite <;> simp only [h]
    · exact ⟨[], hnone s, fun _ h => nomatch h⟩
    · exact ⟨[], hnone s, fun _ h => nomatch h⟩
    · obtain ⟨a, hmakes, hrole, _, _, _, hpurpose, _⟩ := State.makes_throughBinding hx (s.aud k).writer.offset 32
        (reportBytes (s.aud k).writer.writeCount s.houseTime k r) .reportWrite
      exact ⟨[a], hmakes.then_modAud _, fun b hb => by rw [List.mem_singleton.mp hb]; exact ⟨hrole, hpurpose⟩⟩

theorem State.makes_reportAll (s : State) (k : Aud) (l : List Report) :
    ∃ made, State.Makes k s (s.reportAll k l) made ∧ ∀ a ∈ made, a.IsReport := by
  induction l generalizing s with
  | nil => exact ⟨[], .refl k s, fun _ h => nomatch h⟩
  | cons r rest ih =>
    obtain ⟨m, hm, hreport⟩ := s.makes_report k r
    obtain ⟨n, hn, hreports⟩ := ih (s.report k r)
    exact ⟨m ++ n, hm.trans hn, fun a ha => (List.mem_append.mp ha).elim (hreport a) (hreports a)⟩

/-- An access makes itself, or at most a report. -/
theorem State.makes_access (s : State) (k : Aud) (role : Role) (offset length : Nat) (data : List Byte)
    (purpose : Purpose) : ∃ made, State.Makes k s (s.access k role offset length data purpose).1 made
      ∧ ∀ a ∈ made, a.IsReport ∨ (a.role = role ∧ a.purpose = purpose) := by
  obtain ⟨_, h⟩ | ⟨x, hx, ⟨_, h⟩ | ⟨_, h⟩⟩ := s.access_cases k role offset length data purpose <;> rw [h]
  · exact ⟨[], .refl k s, fun _ h => nomatch h⟩
  · obtain ⟨m, hm, hreport⟩ := s.makes_report k (.regionFault role x.selector .limit offset)
    exact ⟨m, hm, fun a ha => .inl (hreport a ha)⟩
  · obtain ⟨a, hmakes, hrole, _, _, _, hpurpose, _⟩ := State.makes_throughBinding hx offset length data purpose
    exact ⟨[a], hmakes, fun b hb => by rw [List.mem_singleton.mp hb]; exact .inr ⟨hrole, hpurpose⟩⟩

theorem State.makes_access_made {s : State} {k : Aud} {role : Role} {x : Binding} (hx : s.binding k role = some x)
    {offset length : Nat} (hl : offset + length - 1 ≤ x.limit.toNat) (data : List Byte) (purpose : Purpose) :
    ∃ a, State.Makes k s (s.access k role offset length data purpose).1 [a] ∧ a.role = role ∧ a.offset = offset
      ∧ a.length = length ∧ a.data = data ∧ a.purpose = purpose ∧ a.tag = s.nextTag := by
  rw [State.access_made hx hl]
  exact State.makes_throughBinding hx offset length data purpose

theorem State.Makes.issued {k : Aud} {s t : State} {made : List Access} (h : State.Makes k s t made) {a : Access}
    (ha : a ∈ made) : s.Issued t k a.role a.offset a.length a.data a.purpose := by
  obtain ⟨x, hx, hselector, hepoch, haddress⟩ := (h.through a ha).binding
  refine ⟨x, hx, a, ?_, (h.through a ha).tag, (h.through a ha).issued, (h.through a ha).aud, rfl, hselector, hepoch,
    rfl, haddress, rfl, rfl, rfl⟩
  rw [h.inFlight]
  exact List.mem_append_right _ ha

/-! ## What the Report Writer hears (R187) -/

/-- R187: the Report Writer after a report of a RUNNING part, with the binding of its ring. -/
def Writer.hear (w : Writer) (ring : Option Binding) : Writer :=
  if w.bound && w.room && ring.any (fun b => w.offset + 32 - 1 ≤ b.limit.toNat) then
    { w with writeCount := w.writeCount + 1 }
  else { w with missed := w.missed + 1 }

theorem State.report_writer (s : State) (k : Aud) (r : Report) : ((s.report k r).aud k).writer
    = if s.partState = .running then (s.aud k).writer.hear (s.binding k .reports) else (s.aud k).writer := by
  have hmiss (t : State) (ht : t.aud k = s.aud k) : ((t.missReport k).aud k).writer
      = { (s.aud k).writer with missed := (s.aud k).writer.missed + 1 } := by
    rw [State.missReport, State.modWriter_def, State.aud_modAud_same, ht]
  unfold Writer.hear
  obtain ⟨h, hr⟩ | ⟨h, hfull, hr⟩ | ⟨h, hroom, hr⟩ := s.report_cases k r <;> rw [hr]
  · rw [if_neg h]
  · rw [if_pos h, hfull, hmiss s rfl]
    rfl
  · rw [if_pos h, hroom, State.appendReport]
    obtain ⟨hx, h⟩ | ⟨x, hx, ⟨hl, h⟩ | ⟨hl, h⟩⟩ := s.launch_cases k .reports (s.aud k).writer.offset 32
      (reportBytes (s.aud k).writer.writeCount s.houseTime k r) .reportWrite <;> simp only [h, hx]
    · exact hmiss s rfl
    · rw [if_neg (by simp; omega)]
      exact hmiss s rfl
    · rw [if_pos (by simp; omega), State.modWriter_def, State.aud_modAud_same]
      rfl

/-- What the Report Writer of auditorium `k` reads: the part state, the binding map and itself. -/
structure State.SameWriter (k : Aud) (s t : State) : Prop where
  partState : s.partState = t.partState
  bindings : s.bindings = t.bindings
  writer : (s.aud k).writer = (t.aud k).writer

theorem State.SameWriter.report {k : Aud} {s t : State} (h : State.SameWriter k s t) (q r : Report) :
    State.SameWriter k (s.report k q) (t.report k r) where
  partState := by rw [(s.onlyAud_report k q).partState, (t.onlyAud_report k r).partState, h.partState]
  bindings := by rw [(s.onlyAud_report k q).bindings, (t.onlyAud_report k r).bindings, h.bindings]
  writer := by
    rw [State.report_writer, State.report_writer, h.partState, h.writer, State.binding_congr h.bindings]

theorem State.SameWriter.access {k : Aud} {s t : State} (h : State.SameWriter k s t) (role : Role)
    (offset length : Nat) (data data' : List Byte) (purpose purpose' : Purpose) :
    State.SameWriter k (s.access k role offset length data purpose).1
      (t.access k role offset length data' purpose').1 := by
  obtain ⟨hx, hs⟩ | ⟨x, hx, ⟨hl, hs⟩ | ⟨hl, hs⟩⟩ := s.access_cases k role offset length data purpose <;>
    obtain ⟨hy, ht⟩ | ⟨y, hy, ⟨hm, ht⟩ | ⟨hm, ht⟩⟩ := t.access_cases k role offset length data' purpose' <;>
    rw [State.binding_congr h.bindings, hy] at hx <;> cases hx <;> rw [hs, ht]
  · exact h
  · exact h.report _ _
  · omega
  · omega
  · exact ⟨h.partState, h.bindings, h.writer⟩

theorem State.sameWriter_of_book {k : Aud} {s t : State} (h : State.OnlyAud k s t)
    (hwriter : (t.aud k).writer = (s.aud k).writer) : State.SameWriter k t s :=
  ⟨h.partState, h.bindings, hwriter⟩

theorem State.SameWriter.refl (k : Aud) (s : State) : State.SameWriter k s s := ⟨rfl, rfl, rfl⟩

theorem State.SameWriter.symm {k : Aud} {s t : State} (h : State.SameWriter k s t) : State.SameWriter k t s :=
  ⟨h.partState.symm, h.bindings.symm, h.writer.symm⟩

theorem State.SameWriter.trans {k : Aud} {s t u : State} (h : State.SameWriter k s t) (g : State.SameWriter k t u) :
    State.SameWriter k s u :=
  ⟨h.partState.trans g.partState, h.bindings.trans g.bindings, h.writer.trans g.writer⟩

theorem State.askBuilder_writer (s : State) (k : Aud) (f : Builder → Builder) :
    State.SameWriter k (s.askBuilder k f) s :=
  State.sameWriter_of_book (s.onlyAud_askBuilder k f) (by rw [State.askBuilder_aud])

theorem State.SameWriter.seqSend {k : Aud} {s t : State} (h : State.SameWriter k s t) (o : SeqOut) :
    State.SameWriter k (s.seqSend k o) (t.seqSend k o) := by
  have hask (f g : Builder → Builder) : State.SameWriter k (s.askBuilder k f) (t.askBuilder k g) :=
    (s.askBuilder_writer k f).trans (h.trans (t.askBuilder_writer k g).symm)
  cases o with
  | start => exact hask _ _
  | remove => exact hask _ _
  | clear => exact hask _ _
  | textReady => exact hask _ _
  | report r => exact h.report r r
  | readEntry => exact h.access _ _ _ _ _ _ _
  | readScan => exact h.access _ _ _ _ _ _ _
  | readLookback => exact h.access _ _ _ _ _ _ _
  | readText => exact h.access _ _ _ _ _ _ _

theorem State.SameWriter.seqSendAll {k : Aud} {s t : State} (h : State.SameWriter k s t) (l : List SeqOut) :
    State.SameWriter k (s.seqSendAll k l) (t.seqSendAll k l) := by
  induction l generalizing s t with
  | nil => exact h
  | cons o rest ih => exact ih (h.seqSend o)

theorem State.SameWriter.reportAll {k : Aud} {s t : State} (h : State.SameWriter k s t) (l : List Report) :
    State.SameWriter k (s.reportAll k l) (t.reportAll k l) := by
  induction l generalizing s t with
  | nil => exact h
  | cons r rest ih => exact ih (h.report r r)

/-- An access that lies within its binding, or has none, leaves the Report Writer. -/
theorem State.access_sameWriter {s : State} {k : Aud} {role : Role} {offset length : Nat}
    (h : ∀ x, s.binding k role = some x → offset + length - 1 ≤ x.limit.toNat) (data : List Byte) (purpose : Purpose) :
    State.SameWriter k (s.access k role offset length data purpose).1 s := by
  obtain ⟨_, hs⟩ | ⟨x, hx, ⟨hl, hs⟩ | ⟨_, hs⟩⟩ := s.access_cases k role offset length data purpose
  · rw [hs]; exact .refl k s
  · exact absurd (h x hx) (by omega)
  · rw [hs]; exact ⟨rfl, rfl, rfl⟩

/-! ## Updates that a Sequencer's messages do not read -/

/-- The update of one auditorium neither reads nor changes its Report Writer and its Builder, and leaves its directive
unit. -/
structure SparesSending (f : Auditorium → Auditorium) : Prop where
  commutes : ∀ a w b, f { a with writer := w, builder := b } = { f a with writer := w, builder := b }
  unit : ∀ a, (f a).unit = a.unit

section Spares
variable {f : Auditorium → Auditorium} (h : SparesSending f)
include h

theorem SparesSending.builder (a : Auditorium) : (f a).builder = a.builder :=
  (congrArg Auditorium.builder (h.commutes a a.writer a.builder) :)

theorem SparesSending.sparesWriter : SparesWriter f := fun a w =>
  (h.commutes a w a.builder).trans (congrArg (fun b => { f a with writer := w, builder := b }) (h.builder a).symm)

theorem SparesSending.withBuilder (a : Auditorium) (b : Builder) :
    f { a with builder := b } = { f a with builder := b } :=
  (h.commutes a a.writer b).trans
    (congrArg (fun w => { f a with writer := w, builder := b }) (h.sparesWriter.writer a).symm)

theorem State.builderTakes_modAud (s : State) (k : Aud) : (s.modAud k f).builderTakes k = s.builderTakes k := by
  unfold State.builderTakes
  rw [State.aud_modAud_same, h.unit, State.modAud_partState]

theorem State.modBuilder_modAud (s : State) (k : Aud) (g : Builder → Builder) :
    (s.modAud k f).modBuilder k g = (s.modBuilder k g).modAud k f := by
  rw [State.modBuilder_def, State.modBuilder_def, State.modAud_modAud, State.modAud_modAud]
  congr 1
  funext a
  exact (congrArg (fun b => { f a with builder := g b }) (h.builder a)).trans (h.withBuilder a _).symm

theorem State.askBuilder_modAud (s : State) (k : Aud) (g : Builder → Builder) :
    (s.modAud k f).askBuilder k g = (s.askBuilder k g).modAud k f := by
  unfold State.askBuilder
  rw [State.builderTakes_modAud h]
  split
  · exact State.modBuilder_modAud h s k g
  · rfl

omit h in
theorem State.access_modAud (hw : SparesWriter f) (s : State) (k : Aud) (role : Role) (offset length : Nat)
    (data : List Byte) (purpose : Purpose) : (s.modAud k f).access k role offset length data purpose
      = ((s.access k role offset length data purpose).1.modAud k f,
          (s.access k role offset length data purpose).2) := by
  unfold State.access
  rw [State.launch_modAud]
  rcases s.launch k role offset length data purpose with ⟨s1, l⟩
  cases l with
  | discarded => rfl
  | beyond => exact congrArg (·, Option.none) (s1.report_modAud k hw _)
  | made => rfl

theorem State.seqSend_modAud (s : State) (k : Aud) (o : SeqOut) :
    (s.modAud k f).seqSend k o = (s.seqSend k o).modAud k f := by
  have haccess (role : Role) (offset length : Nat) (data : List Byte) (purpose : Purpose) :
      ((s.modAud k f).access k role offset length data purpose).1
        = (s.access k role offset length data purpose).1.modAud k f :=
    congrArg Prod.fst (State.access_modAud h.sparesWriter s k role offset length data purpose)
  have hask (g : DirectiveUnit → Builder → Builder) :
      (s.modAud k f).askBuilder k (g ((s.modAud k f).aud k).unit)
        = (s.askBuilder k (g (s.aud k).unit)).modAud k f := by
    rw [State.aud_modAud_same, h.unit]
    exact State.askBuilder_modAud h s k _
  cases o with
  | start c cue reentered held => exact hask fun u b => b.startRequest u.channels.copies c cue reentered held
  | remove c cue cause => exact hask fun u b => b.removal u.channels.copies c cue cause
  | clear c => exact hask fun u b => b.clearRequest u.channels.copies c
  | textReady cue => exact hask fun _ b => b.textReady cue
  | report r => exact s.report_modAud k h.sparesWriter r
  | readEntry => exact haccess _ _ _ _ _
  | readScan => exact haccess _ _ _ _ _
  | readLookback => exact haccess _ _ _ _ _
  | readText => exact haccess _ _ _ _ _

theorem State.seqSendAll_modAud (s : State) (k : Aud) (l : List SeqOut) :
    (s.modAud k f).seqSendAll k l = (s.seqSendAll k l).modAud k f := by
  induction l generalizing s with
  | nil => rfl
  | cons o rest ih => exact (congrArg (fun u : State => u.seqSendAll k rest) (State.seqSend_modAud h s k o)).trans (ih _)

theorem State.seqEnv_modAud (s : State) (k : Aud) : (s.modAud k f).seqEnv k = s.seqEnv k := by
  unfold State.seqEnv State.holdsRole
  rw [State.aud_modAud_same, h.unit]
  rfl

theorem State.builderHears_modAud (s : State) (k : Aud) : (s.modAud k f).builderHears k = s.builderHears k := by
  unfold State.builderHears
  rw [State.aud_modAud_same, h.unit, State.modAud_partState]

theorem State.signalBuilder_modAud (s : State) (k : Aud) :
    (s.modAud k f).signalBuilder k = (s.signalBuilder k).modAud k f := by
  unfold State.signalBuilder
  rw [State.builderHears_modAud h]
  split
  · exact State.modBuilder_modAud h s k _
  · rfl

end Spares

/-! ## A Sequencer's step -/

/-- A Sequencer's step sends all it has to send and puts the Sequencer in place. -/
theorem State.seqStep_eq (s : State) (k : Aud) (f : SeqEnv → Sequencer → Sequencer × List SeqOut) : s.seqStep k f
    = (s.seqSendAll k (f (s.seqEnv k) (s.aud k).seq).2).modAud k
        fun a => { a with seq := (f (s.seqEnv k) (s.aud k).seq).1 } := by
  unfold State.seqStep
  simp only [State.modSeq_def]
  exact State.seqSendAll_modAud (f := fun a => { a with seq := (f (s.seqEnv k) (s.aud k).seq).1 })
    ⟨fun _ _ _ => rfl, fun _ => rfl⟩ s k _

/-! ## The entries a Sequencer reads (R36) -/

/-- The entry a message asks for, with the purpose of its read. -/
def SeqOut.entry : SeqOut → Option (Nat × Purpose)
  | .readEntry gen i => some (i, .entryRead gen i)
  | .readScan gen i => some (i, .scanRead gen i)
  | .readLookback gen i => some (i, .lookbackRead gen i)
  | .start _ _ _ _ => none
  | .remove _ _ _ => none
  | .clear _ => none
  | .textReady _ => none
  | .report _ => none
  | .readText _ _ _ _ => none

/-- The read of an entry as the House Port takes it. -/
def entryReadAs (x : Nat × Purpose) : Nat × Nat × List Byte × Purpose := (32 + 32 * x.1, 32, [], x.2)

/-- The offset, the length, the data and the purpose of an access. -/
def Access.asked (a : Access) : Nat × Nat × List Byte × Purpose := (a.offset, a.length, a.data, a.purpose)

/-- What an access through CUES asks for. -/
def cuesAsked (made : List Access) : List (Nat × Nat × List Byte × Purpose) :=
  (made.filter fun a => a.role == .cues).map Access.asked

theorem cuesAsked_append (l m : List Access) : cuesAsked (l ++ m) = cuesAsked l ++ cuesAsked m := by
  simp [cuesAsked]

theorem cuesAsked_of_others {made : List Access} (h : ∀ a ∈ made, a.role ≠ .cues) : cuesAsked made = [] := by
  unfold cuesAsked
  rw [List.filter_eq_nil_iff.mpr fun a ha => by simpa using h a ha]
  rfl

theorem cuesAsked_of_reports {made : List Access} (h : ∀ a ∈ made, a.IsReport) : cuesAsked made = [] :=
  cuesAsked_of_others fun a ha hrole => by rw [(h a ha).1] at hrole; exact nomatch hrole

theorem State.makes_entry {s : State} {k : Aud} {x : Binding} (hx : s.binding k .cues = some x) {i : Nat}
    (hi : 32 + 32 * i + 31 ≤ x.limit.toNat) (purpose : Purpose) :
    ∃ made, State.Makes k s (s.access k .cues (entryOffset i) 32 [] purpose).1 made
      ∧ cuesAsked made = [entryReadAs (i, purpose)] := by
  obtain ⟨a, hmakes, hrole, hoffset, hlength, hdata, hpurpose, _⟩ := State.makes_access_made hx
    (offset := entryOffset i) (length := 32) (by unfold entryOffset; omega) [] purpose
  refine ⟨[a], hmakes, ?_⟩
  simp [cuesAsked, Access.asked, entryReadAs, hrole, hoffset, hlength, hdata, hpurpose, entryOffset]

theorem State.makes_seqSend {s : State} {k : Aud} {x : Binding} (hx : s.binding k .cues = some x) {o : SeqOut}
    (ho : ∀ y, o.entry = some y → 32 + 32 * y.1 + 31 ≤ x.limit.toNat) :
    ∃ made, State.Makes k s (s.seqSend k o) made ∧ cuesAsked made = o.entry.toList.map entryReadAs := by
  have hask (f : Builder → Builder) : State.Makes k s (s.askBuilder k f) [] := by
    unfold State.askBuilder
    split
    · exact s.makes_modAud k k _
    · exact .refl k s
  cases o with
  | start => exact ⟨[], hask _, rfl⟩
  | remove => exact ⟨[], hask _, rfl⟩
  | clear => exact ⟨[], hask _, rfl⟩
  | textReady => exact ⟨[], hask _, rfl⟩
  | report r =>
    obtain ⟨made, hmakes, hreports⟩ := s.makes_report k r
    exact ⟨made, hmakes, cuesAsked_of_reports hreports⟩
  | readEntry gen i => exact State.makes_entry hx (ho (i, _) rfl) _
  | readScan gen i => exact State.makes_entry hx (ho (i, _) rfl) _
  | readLookback gen i => exact State.makes_entry hx (ho (i, _) rfl) _
  | readText gen cue offset length =>
    obtain ⟨made, hmakes, hkinds⟩ := s.makes_access k .payload offset length [] (.textRead gen cue)
    refine ⟨made, hmakes, cuesAsked_of_others fun a ha hrole => ?_⟩
    obtain ⟨h, _⟩ | ⟨h, _⟩ := hkinds a ha <;> exact nomatch h.symm.trans hrole

theorem State.makes_seqSendAll {s : State} {k : Aud} {x : Binding} (hx : s.binding k .cues = some x) {l : List SeqOut}
    (hl : ∀ y ∈ l.filterMap SeqOut.entry, 32 + 32 * y.1 + 31 ≤ x.limit.toNat) :
    ∃ made, State.Makes k s (s.seqSendAll k l) made ∧ cuesAsked made = (l.filterMap SeqOut.entry).map entryReadAs := by
  induction l generalizing s with
  | nil => exact ⟨[], .refl k s, rfl⟩
  | cons o rest ih =>
    have hsplit : (o :: rest).filterMap SeqOut.entry = o.entry.toList ++ rest.filterMap SeqOut.entry := by
      cases ho : o.entry <;> simp [ho]
    rw [hsplit] at hl ⊢
    obtain ⟨m, hm, hmasked⟩ := State.makes_seqSend hx fun y hy =>
      hl y (List.mem_append_left _ (by rw [hy]; exact List.mem_singleton_self _))
    obtain ⟨n, hn, hnasked⟩ := ih ((State.binding_congr hm.bindings k .cues).trans hx) fun y hy =>
      hl y (List.mem_append_right _ hy)
    exact ⟨m ++ n, hm.trans hn, by rw [cuesAsked_append, hmasked, hnasked, List.map_append]⟩

/-- The reads of the entries, from what was asked through CUES. -/
theorem State.Makes.entriesRead {k : Aud} {s t : State} {made : List Access} (h : State.Makes k s t made)
    {purpose : Nat → Purpose} {indices : List Nat}
    (hasked : cuesAsked made = (indices.map fun i => (i, purpose i)).map entryReadAs) :
    s.EntriesRead t k purpose indices := by
  have hdrop : t.inFlight.drop s.inFlight.length = made := by rw [h.inFlight, List.drop_left]
  refine ⟨?_, fun i hi => ?_⟩
  · rw [hdrop]
    exact hasked.trans (List.map_map ..)
  · have hmem : entryReadAs (i, purpose i) ∈ cuesAsked made := by
      rw [hasked]
      exact List.mem_map_of_mem (List.mem_map_of_mem hi)
    obtain ⟨a, ha, hsame⟩ := List.mem_map.mp hmem
    obtain ⟨hmade, hrole⟩ := List.mem_filter.mp ha
    simp only [Access.asked, entryReadAs, Prod.mk.injEq] at hsame
    obtain ⟨hoffset, hlength, hdata, hpurpose⟩ := hsame
    have hissued := h.issued hmade
    rw [hoffset, hlength, hdata, hpurpose, eq_of_beq hrole] at hissued
    exact hissued

end Sys2Proof.Machine
end

section
/-! SUPPORT. The Show Clock at a boundary and under steering (R13 to R22), and what follows a boundary (R40, R61, R150,
R151). -/

namespace Sys2Proof.Machine

/-! ## Steering (R19 to R22) -/

theorem Clock.steer_eq (c : Clock) (e : Int) : c.steer e
    = ({ c with
          slew := c.slewed e, eps := limitTo c.loop.epsMax (c.rawEps e), e1 := e, e2 := c.e1
          tally := if c.movedTally (c.rawEps e) = 32 ∨ c.movedTally (c.rawEps e) = -32 then 0
            else c.movedTally (c.rawEps e) },
        if c.movedTally (c.rawEps e) = 32 ∨ c.movedTally (c.rawEps e) = -32 then
          [.offSpeed (c.movedTally (c.rawEps e) = -32) (limitTo c.loop.epsMax (c.rawEps e))]
        else []) := by
  unfold Clock.steer
  simp only
  split <;> rfl

/-- Settles O15. -/
theorem steeringFiltersAndSaturates : Obligations.SteeringFiltersAndSaturates := by
  unfold Obligations.SteeringFiltersAndSaturates
  intro c e _
  rw [Clock.steer_eq]
  exact ⟨rfl, rfl, rfl, rfl, rfl, rfl, rfl, rfl, rfl⟩

/-! ## The boundary's work on the clock (R14 to R16) -/

/-- R15: the boundary takes the clock to LOST. -/
abbrev Clock.Loses (c : Clock) : Prop := c.state.counts = true ∧ c.loop.holdover < c.silence + 1

/-- R15: the boundary takes the clock from LOCKED to FLYWHEEL. -/
abbrev Clock.Coasts (c : Clock) : Prop := ¬c.Loses ∧ c.state = .locked ∧ 10 < c.silence + 1

section Silence
variable {c : Clock}

theorem Clock.countSilence_loses (h : c.Loses) : c.countSilence
    = { clock := { c with silence := c.silence + 1, state := .lost, slew := 0 }, reports := [.clockLost]
        signal := some .clear } := by
  unfold Clock.countSilence
  exact (if_pos h.1).trans (if_pos h.2)

theorem Clock.countSilence_coasts (h : c.Coasts) : c.countSilence
    = { clock := { c with silence := c.silence + 1, state := .flywheel, slew := 0 }, reports := [.clockFlywheel]
        signal := none } := by
  obtain ⟨hkept, hlocked, hsilence⟩ := h
  have hcounts : c.state.counts = true := by rw [hlocked]; rfl
  unfold Clock.countSilence
  exact (if_pos hcounts).trans ((if_neg fun h => hkept ⟨hcounts, h⟩).trans (if_pos ⟨hlocked, hsilence⟩))

theorem Clock.countSilence_stays (hlost : ¬c.Loses) (hflew : ¬c.Coasts) : c.countSilence
    = { clock := { c with silence := if c.state.counts then c.silence + 1 else c.silence }, reports := []
        signal := none } := by
  unfold Clock.countSilence
  by_cases hcounts : c.state.counts = true
  · rw [if_pos hcounts, if_pos hcounts]
    exact (if_neg fun h => hlost ⟨hcounts, h⟩).trans (if_neg fun h => hflew ⟨hlost, h⟩)
  · rw [if_neg hcounts, if_neg hcounts]

end Silence

theorem Clock.moveTime_loses (c : Clock) (h : Word) : (c.moveTime h).Loses ↔ c.Loses := by
  unfold Clock.Loses Clock.moveTime
  split <;> rfl

theorem Clock.moveTime_coasts (c : Clock) (h : Word) : (c.moveTime h).Coasts ↔ c.Coasts := by
  unfold Clock.Coasts
  rw [c.moveTime_loses, c.moveTime_state]
  unfold Clock.moveTime
  split <;> rfl

section Boundary
variable {c : Clock} (h : Word)

theorem Clock.boundary_loses (hlost : c.Loses) : c.boundary h
    = { clock := Clock.writeRecord { c.moveTime h with
          silence := (c.moveTime h).silence + 1, state := .lost, slew := 0 } h
        reports := [.clockLost], signal := some .clear } := by
  unfold Clock.boundary
  rw [Clock.countSilence_loses ((c.moveTime_loses h).mpr hlost)]

theorem Clock.boundary_coasts (hflew : c.Coasts) : c.boundary h
    = { clock := Clock.writeRecord { c.moveTime h with
          silence := (c.moveTime h).silence + 1, state := .flywheel, slew := 0 } h
        reports := [.clockFlywheel], signal := none } := by
  unfold Clock.boundary
  rw [Clock.countSilence_coasts ((c.moveTime_coasts h).mpr hflew)]

theorem Clock.boundary_stays (hlost : ¬c.Loses) (hflew : ¬c.Coasts) : c.boundary h
    = { clock := Clock.writeRecord { c.moveTime h with
          silence := if (c.moveTime h).state.counts then (c.moveTime h).silence + 1 else (c.moveTime h).silence } h
        reports := [], signal := none } := by
  unfold Clock.boundary
  rw [Clock.countSilence_stays (mt (c.moveTime_loses h).mp hlost) (mt (c.moveTime_coasts h).mp hflew)]

end Boundary

/-- What a boundary leaves of the clock beside the state, the silence count and the slew. -/
structure Clock.MovedTo (c : Clock) (h : Word) (d : Clock) : Prop where
  showTime : d.showTime = (c.moveTime h).showTime
  fraction : d.fraction = (c.moveTime h).fraction
  anchor : d.anchor = h
  eps : d.eps = c.eps
  e1 : d.e1 = c.e1
  e2 : d.e2 = c.e2
  acquire : d.acquire = c.acquire
  tally : d.tally = c.tally
  seats : d.seats = c.seats
  loop : d.loop = c.loop
  record : d.record = { showTime := d.showTime, state := d.state, eps := d.eps, tally := d.tally, seats := d.seats
                        houseTime := h }

theorem Clock.movedTo_writeRecord (c : Clock) (h : Word) (silence : Nat) (state : ClockState) (slew : Int) :
    c.MovedTo h (Clock.writeRecord { c.moveTime h with silence := silence, state := state, slew := slew } h) := by
  refine ⟨rfl, rfl, ?_, ?_, ?_, ?_, ?_, ?_, ?_, ?_, rfl⟩ <;> (unfold Clock.moveTime; split <;> rfl)

theorem Clock.boundary_movedTo (c : Clock) (h : Word) : c.MovedTo h (c.boundary h).clock := by
  by_cases hlost : c.Loses
  · rw [Clock.boundary_loses h hlost]; exact c.movedTo_writeRecord h _ _ _
  · by_cases hflew : c.Coasts
    · rw [Clock.boundary_coasts h hflew]; exact c.movedTo_writeRecord h _ _ _
    · rw [Clock.boundary_stays h hlost hflew]; exact c.movedTo_writeRecord h _ _ _

theorem ClockState.advances_iff (x : ClockState) :
    x.advances = true ↔ x = .acquiring ∨ x = .locked ∨ x = .flywheel := by
  cases x <;> simp [ClockState.advances]

theorem ClockState.counts_iff (x : ClockState) : x.counts = true
    ↔ x = .searching ∨ x = .acquiring ∨ x = .locked ∨ x = .flywheel ∨ x = .paused := by
  cases x <;> simp [ClockState.counts]

theorem Clock.moveTime_stands {c : Clock} {h : Word} (hs : ¬c.state.advances = true) :
    c.moveTime h = { c with anchor := h } := by
  unfold Clock.moveTime
  exact if_neg hs

theorem Clock.moveTime_advances {c : Clock} {h : Word} (hs : c.state.advances = true) : c.moveTime h
    = { c with
        showTime := clampShowTime (c.showTime.toNat + c.advance h), fraction := (c.drift h % 16777216).toNat
        anchor := h, slew := 0 } := by
  unfold Clock.moveTime
  exact if_pos hs

theorem clampShowTime_toNat (n : Nat) : (clampShowTime n).toNat = min n 4294967295 := by
  unfold clampShowTime Config.showTimeMax
  rw [BitVec.toNat_ofNat]
  omega

theorem Clock.boundary_slew {c : Clock} (h : Word) (hs : c.state.advances = true ∨ c.Loses ∨ c.Coasts) :
    (c.boundary h).clock.slew = 0 := by
  by_cases hlost : c.Loses
  · rw [Clock.boundary_loses h hlost]; rfl
  · by_cases hflew : c.Coasts
    · rw [Clock.boundary_coasts h hflew]; rfl
    · rw [Clock.boundary_stays h hlost hflew, Clock.moveTime_advances (hs.resolve_right fun g => g.elim hlost hflew)]
      rfl

/-! ## A signal of the clock, and its answer (R23, R26) -/

/-- R23, R26: what a signal makes of the Sequencer. -/
def Sequencer.obey (q : Sequencer) (env : SeqEnv) : Signal → Sequencer × List SeqOut
  | .seat target => q.seat env target
  | .clear => q.clearOrder env

theorem State.signalBuilder_seqEnv (s : State) (k : Aud) : (s.signalBuilder k).seqEnv k = s.seqEnv k := by
  unfold State.seqEnv State.holdsRole
  rw [State.signalBuilder_aud, State.binding_congr (s.onlyAud_signalBuilder k).bindings,
    State.binding_congr (s.onlyAud_signalBuilder k).bindings]

theorem State.deliver_eq (s : State) (k : Aud) (sig : Signal) : s.deliver k sig
    = ((s.signalBuilder k).seqSendAll k ((s.aud k).seq.obey (s.seqEnv k) sig).2).modAud k
        fun a => { a with
          mixer := a.mixer.markResync, seq := ((s.aud k).seq.obey (s.seqEnv k) sig).1 } := by
  have hspares : SparesSending fun a => { a with mixer := a.mixer.markResync } := ⟨fun _ _ _ => rfl, fun _ => rfl⟩
  have henv : ((s.signalBuilder k).modMixer k Mixer.markResync).seqEnv k = s.seqEnv k := by
    rw [State.modMixer_def, State.seqEnv_modAud hspares, State.signalBuilder_seqEnv]
  have hseq : (((s.signalBuilder k).modMixer k Mixer.markResync).aud k).seq = (s.aud k).seq := by
    rw [State.modMixer_def, State.aud_modAud_same, State.signalBuilder_aud]
  unfold State.deliver
  cases sig <;>
  · simp only [State.seqStep_eq, henv, hseq]
    rw [State.modMixer_def, State.seqSendAll_modAud hspares, State.modAud_modAud]
    rfl

theorem State.clockStep_quiet (s : State) (k : Aud) {a : ClockAnswer} (h : a.signal = none) :
    s.clockStep k a = (s.reportAll k a.reports).modAud k fun x => { x with clock := a.clock } := by
  unfold State.clockStep
  rw [h, State.modClock_def]
  exact State.reportAll_modAud (f := fun x => { x with clock := a.clock }) s k (fun _ _ => rfl) _

theorem State.reportAll_seqEnv (s : State) (k : Aud) (l : List Report) : (s.reportAll k l).seqEnv k = s.seqEnv k := by
  unfold State.seqEnv State.holdsRole
  rw [State.reportAll_aud, State.binding_congr (s.onlyAud_reportAll k l).bindings,
    State.binding_congr (s.onlyAud_reportAll k l).bindings]

theorem State.clockStep_signals (s : State) (k : Aud) {a : ClockAnswer} {sig : Signal} (h : a.signal = some sig) :
    s.clockStep k a = (((s.reportAll k a.reports).signalBuilder k).seqSendAll k
        ((s.aud k).seq.obey (s.seqEnv k) sig).2).modAud k
      fun x => { x with
        clock := a.clock, mixer := x.mixer.markResync, seq := ((s.aud k).seq.obey (s.seqEnv k) sig).1 } := by
  have hspares : SparesSending fun x => { x with clock := a.clock } := ⟨fun _ _ _ => rfl, fun _ => rfl⟩
  have hreports := State.reportAll_modAud (f := fun x => { x with clock := a.clock }) s k hspares.sparesWriter a.reports
  unfold State.clockStep
  simp only [h, State.modClock_def, hreports]
  rw [State.deliver_eq, State.seqEnv_modAud hspares, State.signalBuilder_modAud hspares,
    State.seqSendAll_modAud hspares, State.modAud_modAud, State.aud_modAud_same, State.reportAll_seqEnv,
    State.reportAll_aud]

/-! ## What a clear order sends (R59) -/

/-- A message to the Builder. -/
def SeqOut.toBuilder : SeqOut → Bool
  | .start _ _ _ _ => true
  | .remove _ _ _ => true
  | .clear _ => true
  | .textReady _ => true
  | .report _ => false
  | .readEntry _ _ => false
  | .readScan _ _ => false
  | .readLookback _ _ => false
  | .readText _ _ _ _ => false

theorem State.seqSend_toBuilder (s : State) (k : Aud) {o : SeqOut} (h : o.toBuilder = true) :
    State.SameWriter k (s.seqSend k o) s ∧ (s.seqSend k o).inFlight = s.inFlight := by
  cases o with
  | start => exact ⟨s.askBuilder_writer k _, s.askBuilder_inFlight k _⟩
  | remove => exact ⟨s.askBuilder_writer k _, s.askBuilder_inFlight k _⟩
  | clear => exact ⟨s.askBuilder_writer k _, s.askBuilder_inFlight k _⟩
  | textReady => exact ⟨s.askBuilder_writer k _, s.askBuilder_inFlight k _⟩
  | report => exact nomatch h
  | readEntry => exact nomatch h
  | readScan => exact nomatch h
  | readLookback => exact nomatch h
  | readText => exact nomatch h

theorem State.seqSendAll_toBuilder (s : State) (k : Aud) {l : List SeqOut} (h : ∀ o ∈ l, o.toBuilder = true) :
    State.SameWriter k (s.seqSendAll k l) s ∧ (s.seqSendAll k l).inFlight = s.inFlight := by
  induction l generalizing s with
  | nil => exact ⟨.refl k s, rfl⟩
  | cons o rest ih =>
    obtain ⟨hwriter, hflight⟩ := s.seqSend_toBuilder k (h o List.mem_cons_self)
    obtain ⟨hwriters, hflights⟩ := ih (s.seqSend k o) fun x hx => h x (List.mem_cons_of_mem _ hx)
    exact ⟨hwriters.trans hwriter, hflights.trans hflight⟩

theorem screenRequests_toBuilder (mask : BitVec 4) (active : Vector (List ActiveCue) 4) :
    ∀ o ∈ screenRequests mask active, o.toBuilder = true := by
  intro o ho
  obtain ⟨c, _, ho⟩ := List.mem_flatMap.mp ho
  obtain h | h := List.mem_append.mp ho
  · obtain ⟨a, _, rfl⟩ := List.mem_map.mp h
    rfl
  · split at h
    · rw [List.mem_singleton.mp h]; rfl
    · exact nomatch h

theorem SeqState.isFollowing_iff (x : SeqState) : x.isFollowing = true ↔ x = .walking ∨ x = .seeking := by
  cases x <;> simp [SeqState.isFollowing]

theorem Sequencer.clearOrder_follows {q : Sequencer} (h : q.state.isFollowing = true) (env : SeqEnv) :
    q.clearOrder env = ({ q.dropReads with active := noActive, state := .idle }, screenRequests env.mask q.active) := by
  unfold Sequencer.clearOrder
  exact if_pos h

theorem Sequencer.clearOrder_rests {q : Sequencer} (h : ¬q.state.isFollowing = true) (env : SeqEnv) :
    q.clearOrder env = (q, []) := by
  unfold Sequencer.clearOrder
  exact if_neg h

theorem Sequencer.clearOrder_sends (q : Sequencer) (env : SeqEnv) :
    (q.clearOrder env).2 = if q.state.isFollowing then screenRequests env.mask q.active else [] := by
  unfold Sequencer.clearOrder
  split <;> rfl

theorem Sequencer.clearOrder_state (q : Sequencer) (env : SeqEnv) : ¬(q.clearOrder env).1.state.isFollowing = true := by
  unfold Sequencer.clearOrder
  split
  · exact fun h => nomatch h
  · next h => exact h

theorem Sequencer.update_rests {q : Sequencer} (h : ¬q.state.isFollowing = true) (env : SeqEnv) (now : Word) :
    q.update env now = (q, []) := by
  unfold Sequencer.update
  cases hq : q.state <;> simp_all [SeqState.isFollowing]

/-! ## What follows a boundary (R40, R61, R150, R151) -/

/-- R40: what the show-time update of a boundary makes of the Sequencer of `a`; none while the clock is IDLE. -/
def Auditorium.updated (a : Auditorium) (env : SeqEnv) : Sequencer × List SeqOut :=
  if a.clock.state = .idle then (a.seq, []) else a.seq.update env a.clock.showTime

theorem State.showTimeUpdate_eq (s : State) (k : Aud) : s.showTimeUpdate k
    = (s.seqSendAll k ((s.aud k).updated (s.seqEnv k)).2).modAud k
        fun a => { a with seq := ((s.aud k).updated (s.seqEnv k)).1 } := by
  unfold State.showTimeUpdate Auditorium.updated
  split
  · refine (State.modAud_id s k).symm.trans ?_
    unfold State.modAud
    rfl
  · exact s.seqStep_eq k _

theorem State.readHead_aud (s : State) (k : Aud) :
    (s.readHead k).aud k = { s.aud k with writer := ((s.readHead k).aud k).writer } := s.access_aud k _ _ _ _ _ k

theorem State.boundarySnapshot_aud (s : State) (k : Aud) :
    (s.boundarySnapshot k).aud k = { s.aud k with writer := ((s.boundarySnapshot k).aud k).writer } := by
  unfold State.boundarySnapshot State.snapshot
  split
  · exact s.access_aud k _ _ _ _ _ k
  · rfl

theorem State.onlyAud_boundarySnapshot (s : State) (k : Aud) : State.OnlyAud k s (s.boundarySnapshot k) := by
  unfold State.boundarySnapshot State.snapshot
  split
  · exact s.onlyAud_access k _ _ _ _ _
  · exact .refl k s

theorem State.OnlyAud.seqEnv {k : Aud} {s t : State} (h : State.OnlyAud k s t) (hunit : (t.aud k).unit = (s.aud k).unit) :
    t.seqEnv k = s.seqEnv k := by
  unfold State.seqEnv State.holdsRole
  rw [hunit, State.binding_congr h.bindings, State.binding_congr h.bindings]

theorem State.OnlyAud.live {k : Aud} {s t : State} (h : State.OnlyAud k s t) : t.live = s.live := by
  unfold State.live
  rw [h.partState]

theorem State.onlyAud_showTimeUpdate (s : State) (k : Aud) : State.OnlyAud k s (s.showTimeUpdate k) := by
  unfold State.showTimeUpdate
  split
  · exact .refl k s
  · exact s.onlyAud_seqStep k _

theorem State.showTimeUpdate_aud (s : State) (k : Aud) : (s.showTimeUpdate k).aud k
    = { (s.aud k).told s.live ((s.aud k).updated (s.seqEnv k)).1 ((s.aud k).updated (s.seqEnv k)).2 with
        writer := ((s.showTimeUpdate k).aud k).writer } := by
  unfold State.showTimeUpdate Auditorium.updated
  split
  · simp [Auditorium.told]
  · exact s.seqStep_told k _

theorem State.boundaryFollow_dark {s : State} {k : Aud} (h : (s.aud k).unit.showState = .dark) (o : Bool) :
    s.boundaryFollow k o = s.darkCheck k := by
  unfold State.boundaryFollow
  exact if_pos h

theorem State.boundaryFollow_lit {s : State} {k : Aud} (h : (s.aud k).unit.showState ≠ .dark) (o : Bool) :
    s.boundaryFollow k o = if o then ((s.readHead k).boundarySnapshot k).showTimeUpdate k
      else ((s.readHead k).showTimeUpdate k).boundarySnapshot k := by
  unfold State.boundaryFollow
  exact if_neg h

theorem State.darkCheck_aud (s : State) (k j : Aud) : (s.darkCheck k).aud j = s.aud j := by
  unfold State.darkCheck
  split <;> rfl

/-- What follows the boundary of a lit auditorium: the show-time update, with the Builder told. -/
theorem State.boundaryFollow_aud {s : State} {k : Aud} (h : (s.aud k).unit.showState ≠ .dark) (o : Bool) :
    (s.boundaryFollow k o).aud k
      = { (s.aud k).told s.live ((s.aud k).updated (s.seqEnv k)).1 ((s.aud k).updated (s.seqEnv k)).2 with
          writer := ((s.boundaryFollow k o).aud k).writer } := by
  have hhead : State.OnlyAud k s (s.readHead k) := s.onlyAud_access k _ _ _ _ _
  have hshot := (s.readHead k).onlyAud_boundarySnapshot k
  rw [State.boundaryFollow_lit h]
  cases o with
  | false =>
    have e := (s.readHead k).showTimeUpdate_aud k
    rw [hhead.live, hhead.seqEnv (by rw [State.readHead_aud]), State.readHead_aud] at e
    simp only [Bool.false_eq_true, if_false]
    rw [State.boundarySnapshot_aud, e]
    rfl
  | true =>
    have e := ((s.readHead k).boundarySnapshot k).showTimeUpdate_aud k
    rw [(hhead.trans hshot).live, (hhead.trans hshot).seqEnv (by rw [State.boundarySnapshot_aud, State.readHead_aud]),
      State.boundarySnapshot_aud, State.readHead_aud] at e
    simp only [if_true]
    rw [e]
    rfl

theorem State.readHead_sameWriter {s : State} {k : Aud}
    (h : ∀ x, s.binding k .showRecord = some x → 511 ≤ x.limit.toNat) : State.SameWriter k (s.readHead k) s :=
  State.access_sameWriter (fun x hx => Nat.le_trans (by decide) (h x hx)) _ _

theorem State.boundarySnapshot_sameWriter {s : State} {k : Aud}
    (h : ∀ x, s.binding k .showRecord = some x → 511 ≤ x.limit.toNat) :
    State.SameWriter k (s.boundarySnapshot k) s := by
  unfold State.boundarySnapshot State.snapshot
  split
  · exact State.access_sameWriter (fun x hx => Nat.le_trans (by decide) (h x hx)) _ _
  · exact .refl k s

theorem State.showTimeUpdate_sameWriter (s : State) (k : Aud) :
    State.SameWriter k (s.showTimeUpdate k) (s.seqSendAll k ((s.aud k).updated (s.seqEnv k)).2) := by
  rw [State.showTimeUpdate_eq]
  exact ⟨rfl, rfl, by rw [State.aud_modAud_same]⟩

/-- Where the show record's accesses lie within its binding, what follows a boundary reports what the show-time update
reports. -/
theorem State.boundaryFollow_sameWriter {s : State} {k : Aud} (hlit : (s.aud k).unit.showState ≠ .dark)
    (h : ∀ x, s.binding k .showRecord = some x → 511 ≤ x.limit.toNat) (o : Bool) :
    State.SameWriter k (s.boundaryFollow k o) (s.seqSendAll k ((s.aud k).updated (s.seqEnv k)).2) := by
  have honly : State.OnlyAud k s (s.readHead k) := s.onlyAud_access k _ _ _ _ _
  have hhead := State.readHead_sameWriter h
  have hin (t : State) (ht : t.bindings = s.bindings) : ∀ x, t.binding k .showRecord = some x → 511 ≤ x.limit.toNat :=
    fun x hx => h x ((State.binding_congr ht k _).symm.trans hx)
  rw [State.boundaryFollow_lit hlit]
  cases o with
  | false =>
    have e := (s.readHead k).showTimeUpdate_sameWriter k
    rw [honly.seqEnv (by rw [State.readHead_aud]), State.readHead_aud] at e
    exact (State.boundarySnapshot_sameWriter (hin _
      ((((s.readHead k).onlyAud_showTimeUpdate k).bindings).trans honly.bindings))).trans (e.trans (hhead.seqSendAll _))
  | true =>
    have hshot := (s.readHead k).onlyAud_boundarySnapshot k
    have e := ((s.readHead k).boundarySnapshot k).showTimeUpdate_sameWriter k
    rw [(honly.trans hshot).seqEnv (by rw [State.boundarySnapshot_aud, State.readHead_aud]),
      State.boundarySnapshot_aud, State.readHead_aud] at e
    exact e.trans (((State.boundarySnapshot_sameWriter (hin _ honly.bindings)).trans hhead).seqSendAll _)

theorem State.onlyAud_boundaryFollow (s : State) (k : Aud) (o : Bool) : State.OnlyAud k s (s.boundaryFollow k o) := by
  have hhead : State.OnlyAud k s (s.readHead k) := s.onlyAud_access k _ _ _ _ _
  unfold State.boundaryFollow
  split
  · unfold State.darkCheck
    split
    · exact .refl k s
    · exact s.onlyAud_tableAccess k _ _ _ _ _ _ _
  · split
    · exact (hhead.trans (State.onlyAud_boundarySnapshot _ k)).trans (State.onlyAud_showTimeUpdate _ k)
    · exact (hhead.trans (State.onlyAud_showTimeUpdate _ k)).trans (State.onlyAud_boundarySnapshot _ k)

/-! ## The boundary as a whole (R14 to R16) -/

/-- The state after the clock's work at a boundary. -/
def State.clocked (s : State) (k : Aud) : State :=
  (s.modAud k fun a => { a with boundaryDue := false }).clockStep k ((s.aud k).clock.boundary s.houseTime)

theorem State.takeBoundary_eq (s : State) (k : Aud) (o : Bool) :
    s.takeBoundary k o = if s.partState = .running then (s.clocked k).boundaryFollow k o else s.clocked k := rfl

theorem execFrameBoundary_due {s : State} {k : Aud} (h : (s.aud k).boundaryDue = true) (o : Bool) :
    exec (.frameBoundary k o) s = .next (s.takeBoundary k o) := by
  have : exec (.frameBoundary k o) s = .next (if (s.aud k).boundaryDue then s.takeBoundary k o else s) := rfl
  rw [this, if_pos h]

theorem State.onlyAud_clocked (s : State) (k : Aud) : State.OnlyAud k s (s.clocked k) :=
  (s.onlyAud_modAud k _).trans (State.onlyAud_clockStep _ k _)

theorem State.onlyAud_takeBoundary (s : State) (k : Aud) (o : Bool) : State.OnlyAud k s (s.takeBoundary k o) := by
  rw [State.takeBoundary_eq]
  split
  · exact (s.onlyAud_clocked k).trans (State.onlyAud_boundaryFollow _ k o)
  · exact s.onlyAud_clocked k

theorem State.clocked_aud (s : State) (k : Aud) : (s.clocked k).aud k
    = { s.aud k with
        clock := ((s.aud k).clock.boundary s.houseTime).clock, seq := ((s.clocked k).aud k).seq
        builder := ((s.clocked k).aud k).builder, mixer := ((s.clocked k).aud k).mixer
        writer := ((s.clocked k).aud k).writer, boundaryDue := false } := by
  unfold State.clocked
  rw [State.clockStep_aud, State.aud_modAud_same]

/-- R15: what the boundary reports. -/
def Clock.silenceReports (c : Clock) : List Report :=
  if c.Loses then [.clockLost] else if c.Coasts then [.clockFlywheel] else []

theorem Clock.boundary_reports (c : Clock) (h : Word) : (c.boundary h).reports = c.silenceReports := by
  unfold Clock.silenceReports
  by_cases hlost : c.Loses
  · rw [Clock.boundary_loses h hlost, if_pos hlost]
  · rw [if_neg hlost]
    by_cases hflew : c.Coasts
    · rw [Clock.boundary_coasts h hflew, if_pos hflew]
    · rw [Clock.boundary_stays h hlost hflew, if_neg hflew]

theorem Clock.boundary_signal (c : Clock) (h : Word) :
    (c.boundary h).signal = if c.Loses then some .clear else none := by
  by_cases hlost : c.Loses
  · rw [Clock.boundary_loses h hlost, if_pos hlost]
  · rw [if_neg hlost]
    by_cases hflew : c.Coasts
    · rw [Clock.boundary_coasts h hflew]
    · rw [Clock.boundary_stays h hlost hflew]

theorem Clock.boundary_state (c : Clock) (h : Word) : (c.boundary h).clock.state
    = if c.Loses then .lost else if c.Coasts then .flywheel else c.state := by
  by_cases hlost : c.Loses
  · rw [Clock.boundary_loses h hlost, if_pos hlost]; rfl
  · rw [if_neg hlost]
    by_cases hflew : c.Coasts
    · rw [Clock.boundary_coasts h hflew, if_pos hflew]; rfl
    · rw [Clock.boundary_stays h hlost hflew, if_neg hflew]; exact c.moveTime_state h

theorem Clock.moveTime_silence (c : Clock) (h : Word) : (c.moveTime h).silence = c.silence := by
  unfold Clock.moveTime
  split <;> rfl

theorem Clock.boundary_silence (c : Clock) (h : Word) : (c.boundary h).clock.silence
    = if c.state.counts then c.silence + 1 else c.silence := by
  rw [← c.moveTime_silence h, ← c.moveTime_state h]
  by_cases hlost : c.Loses
  · rw [Clock.boundary_loses h hlost, c.moveTime_state, if_pos hlost.1]; rfl
  · by_cases hflew : c.Coasts
    · have hcounts : (c.moveTime h).state.counts = true := by rw [c.moveTime_state, hflew.2.1]; rfl
      rw [Clock.boundary_coasts h hflew, if_pos hcounts]; rfl
    · rw [Clock.boundary_stays h hlost hflew]; rfl

/-- The blocks of an auditorium whose boundary is taken, with the clock `c`. -/
def Auditorium.bounded (c : Clock) (a : Auditorium) : Auditorium := { a with clock := c, boundaryDue := false }

theorem Auditorium.sparesSending_taken :
    SparesSending fun a : Auditorium => { a with boundaryDue := false } := ⟨fun _ _ _ => rfl, fun _ => rfl⟩

/-- A boundary that does not lose the clock puts the clock in place and reports. -/
theorem State.clocked_stays {s : State} {k : Aud} (h : ¬(s.aud k).clock.Loses) : s.clocked k
    = (s.reportAll k (s.aud k).clock.silenceReports).modAud k
        (Auditorium.bounded ((s.aud k).clock.boundary s.houseTime).clock) := by
  have hsignal : ((s.aud k).clock.boundary s.houseTime).signal = none := by
    rw [Clock.boundary_signal, if_neg h]
  unfold State.clocked
  rw [State.clockStep_quiet _ k hsignal, Clock.boundary_reports,
    State.reportAll_modAud s k Auditorium.sparesSending_taken.sparesWriter, State.modAud_modAud]
  rfl

/-- A boundary that loses the clock delivers a clear order after its report. -/
theorem State.clocked_loses {s : State} {k : Aud} (h : (s.aud k).clock.Loses) : s.clocked k
    = (((s.reportAll k [.clockLost]).signalBuilder k).seqSendAll k ((s.aud k).seq.clearOrder (s.seqEnv k)).2).modAud k
        fun a => { a.bounded ((s.aud k).clock.boundary s.houseTime).clock with
          mixer := a.mixer.markResync, seq := ((s.aud k).seq.clearOrder (s.seqEnv k)).1 } := by
  have hspares := Auditorium.sparesSending_taken
  have hsignal : ((s.aud k).clock.boundary s.houseTime).signal = some .clear := by
    rw [Clock.boundary_signal, if_pos h]
  have hreports : ((s.aud k).clock.boundary s.houseTime).reports = [.clockLost] := by
    rw [Clock.boundary_reports, Clock.silenceReports, if_pos h]
  unfold State.clocked
  rw [State.clockStep_signals _ k hsignal, hreports, State.reportAll_modAud s k hspares.sparesWriter,
    State.signalBuilder_modAud hspares, State.seqEnv_modAud hspares, State.seqSendAll_modAud hspares,
    State.modAud_modAud, State.aud_modAud_same]
  rfl

theorem State.takeBoundary_aud (s : State) (k : Aud) (o : Bool) : (s.takeBoundary k o).aud k
    = { s.aud k with
        clock := ((s.aud k).clock.boundary s.houseTime).clock, seq := ((s.takeBoundary k o).aud k).seq
        builder := ((s.takeBoundary k o).aud k).builder, mixer := ((s.takeBoundary k o).aud k).mixer
        writer := ((s.takeBoundary k o).aud k).writer, boundaryDue := false } := by
  have hfollow (t : State) : (t.boundaryFollow k o).aud k
      = { t.aud k with
          seq := ((t.boundaryFollow k o).aud k).seq, builder := ((t.boundaryFollow k o).aud k).builder
          writer := ((t.boundaryFollow k o).aud k).writer } := by
    by_cases hdark : (t.aud k).unit.showState = .dark
    · rw [State.boundaryFollow_dark hdark, State.darkCheck_aud]
    · rw [State.boundaryFollow_aud hdark]
      rfl
  rw [State.takeBoundary_eq]
  split
  · rw [hfollow, State.clocked_aud]
  · exact s.clocked_aud k

/-- R14: in its ranges a clock 480 ticks after its anchor advances by 431 to 529 show ticks. -/
theorem Clock.Within.advance_bounds {c : Clock} (h : c.Within) {t : Word} (ht : t - c.anchor = 480) :
    431 ≤ c.advance t ∧ c.advance t ≤ 529 := by
  obtain ⟨hlow, hhigh⟩ := h.eps
  have hlimit := h.loop.epsMax
  have hfraction := h.fraction
  have hslew := h.slew
  unfold Clock.advance Clock.drift
  rw [ht]
  have h480 : (480 : Word).toNat = 480 := rfl
  rw [h480]
  omega

/-- Settles O13. -/
theorem boundaryAdvancesTheClockWithinBounds : Obligations.BoundaryAdvancesTheClockWithinBounds := by
  unfold Obligations.BoundaryAdvancesTheClockWithinBounds
  intro k o s hdue c advances passed drift
  have haud := s.takeBoundary_aud k o
  have hmoved := c.boundary_movedTo s.houseTime
  have hclock : ((s.takeBoundary k o).aud k).clock = (c.boundary s.houseTime).clock := congrArg Auditorium.clock haud
  have hadvances : advances ↔ c.state.advances = true := c.state.advances_iff.symm
  have hgain (h : advances) : (c.boundary s.houseTime).clock.showTime
      = clampShowTime (c.showTime.toNat + c.advance s.houseTime) := by
    rw [hmoved.showTime, Clock.moveTime_advances (hadvances.mp h)]
  refine ⟨_, execFrameBoundary_due hdue o, s.onlyAud_takeBoundary k o, by rw [haud], by rw [haud], by rw [haud],
    by rw [haud], by rw [haud], ?_⟩
  rw [hclock]
  refine ⟨hmoved.anchor, hmoved.eps, hmoved.e1, hmoved.e2, hmoved.acquire, hmoved.tally, hmoved.seats, hmoved.loop,
    hmoved.record, fun h => ⟨?_, ?_, Clock.boundary_slew _ (.inl (hadvances.mp h))⟩, fun hwithin hticks h => ?_,
    fun h => ?_⟩
  · rw [hgain h, clampShowTime_toNat, Clock.advance]
    simp only [passed, drift, c, Clock.drift]
    omega
  · rw [hmoved.fraction, Clock.moveTime_advances (hadvances.mp h)]
    simp only [passed, drift, c, Clock.drift]
    omega
  · have hbounds := Clock.Within.advance_bounds (c := (s.aud k).clock) hwithin hticks
    rw [hgain h, clampShowTime_toNat]
    simp only [c]
    omega
  · rw [hmoved.showTime, hmoved.fraction, Clock.moveTime_stands (mt hadvances.mpr h)]
    exact ⟨rfl, rfl⟩

/-! ## Silence (R15, R26, R59) -/

theorem State.signalBuilder_sameWriter (s : State) (k : Aud) : State.SameWriter k (s.signalBuilder k) s :=
  State.sameWriter_of_book (s.onlyAud_signalBuilder k) (by rw [State.signalBuilder_aud])

theorem State.modAud_sameWriter (s : State) (k : Aud) {f : Auditorium → Auditorium} (h : SparesWriter f) :
    State.SameWriter k (s.modAud k f) s :=
  State.sameWriter_of_book (s.onlyAud_modAud k f) (by rw [State.aud_modAud_same, h.writer])

theorem State.seqSendAll_builder_congr {s t : State} {k : Aud} (hpart : s.partState = t.partState)
    (hunit : (s.aud k).unit = (t.aud k).unit) (hbuilder : (s.aud k).builder = (t.aud k).builder) (l : List SeqOut) :
    ((s.seqSendAll k l).aud k).builder = ((t.seqSendAll k l).aud k).builder := by
  have htakes : s.builderTakes k = t.builderTakes k := by
    unfold State.builderTakes
    rw [hpart, hunit]
  rw [State.seqSendAll_builder, State.seqSendAll_builder, htakes, hunit, hbuilder]

theorem State.signalBuilder_builder_congr {s t : State} {k : Aud} (hpart : s.partState = t.partState)
    (hunit : (s.aud k).unit = (t.aud k).unit) (hbuilder : (s.aud k).builder = (t.aud k).builder) :
    ((s.signalBuilder k).aud k).builder = ((t.signalBuilder k).aud k).builder := by
  have hhears : s.builderHears k = t.builderHears k := by
    unfold State.builderHears
    rw [hpart, hunit]
  unfold State.signalBuilder
  rw [hhears]
  split
  · rw [State.modBuilder_def, State.modBuilder_def, State.aud_modAud_same, State.aud_modAud_same, hbuilder]
  · exact hbuilder

theorem State.signalBuilder_unit (s : State) (k : Aud) : ((s.signalBuilder k).aud k).unit = (s.aud k).unit :=
  (congrArg Auditorium.unit (s.signalBuilder_aud k k) :)

theorem State.reportAll_unit (s : State) (k : Aud) (l : List Report) :
    ((s.reportAll k l).aud k).unit = (s.aud k).unit :=
  (congrArg Auditorium.unit (s.reportAll_aud k l k) :)

/-- The Builder after a report, its own signal and what the Sequencer asks of it. -/
theorem State.signalled_builder (s : State) (k : Aud) (reports : List Report) (l : List SeqOut) :
    ((((s.reportAll k reports).signalBuilder k).seqSendAll k l).aud k).builder
      = (((s.signalBuilder k).seqSendAll k l).aud k).builder := by
  have hpart := (s.onlyAud_reportAll k reports).partState
  refine State.seqSendAll_builder_congr ?_ ?_ (State.signalBuilder_builder_congr hpart ?_ ?_) l
  · rw [(State.onlyAud_signalBuilder _ k).partState, (State.onlyAud_signalBuilder _ k).partState, hpart]
  · rw [State.signalBuilder_unit, State.signalBuilder_unit, State.reportAll_unit]
  · exact s.reportAll_unit k _
  · rw [State.reportAll_aud]

theorem State.clocked_seq (s : State) (k : Aud) : ((s.clocked k).aud k).seq
    = if (s.aud k).clock.Loses then ((s.aud k).seq.clearOrder (s.seqEnv k)).1 else (s.aud k).seq := by
  split
  · next h => rw [State.clocked_loses h, State.aud_modAud_same]
  · next h => rw [State.clocked_stays h, State.aud_modAud_same, State.reportAll_aud]; rfl

theorem State.clocked_mixer (s : State) (k : Aud) : ((s.clocked k).aud k).mixer
    = if (s.aud k).clock.Loses then (s.aud k).mixer.markResync else (s.aud k).mixer := by
  split
  · next h =>
    rw [State.clocked_loses h, State.aud_modAud_same, State.seqSendAll_aud, State.signalBuilder_aud,
      State.reportAll_aud]
  · next h => rw [State.clocked_stays h, State.aud_modAud_same, State.reportAll_aud]; rfl

theorem State.clocked_builder (s : State) (k : Aud) : ((s.clocked k).aud k).builder
    = if (s.aud k).clock.Loses then
        (((s.signalBuilder k).seqSendAll k ((s.aud k).seq.clearOrder (s.seqEnv k)).2).aud k).builder
      else (s.aud k).builder := by
  split
  · next h =>
    rw [State.clocked_loses h, State.aud_modAud_same]
    exact s.signalled_builder k _ _
  · next h => rw [State.clocked_stays h, State.aud_modAud_same, State.reportAll_aud]; rfl

theorem Sequencer.clearOrder_toBuilder (q : Sequencer) (env : SeqEnv) :
    ∀ o ∈ (q.clearOrder env).2, o.toBuilder = true := by
  rw [Sequencer.clearOrder_sends]
  split
  · exact screenRequests_toBuilder _ _
  · exact fun _ h => nomatch h

theorem State.clocked_sameWriter (s : State) (k : Aud) :
    State.SameWriter k (s.clocked k) (s.reportAll k (s.aud k).clock.silenceReports) := by
  by_cases h : (s.aud k).clock.Loses
  · have hreports : (s.aud k).clock.silenceReports = [.clockLost] := if_pos h
    have hsent := ((s.reportAll k [.clockLost]).signalBuilder k).seqSendAll_toBuilder k
      ((s.aud k).seq.clearOrder_toBuilder (s.seqEnv k))
    rw [State.clocked_loses h, hreports]
    exact (State.modAud_sameWriter _ k fun _ _ => rfl).trans (hsent.1.trans (State.signalBuilder_sameWriter _ k))
  · rw [State.clocked_stays h]
    exact State.modAud_sameWriter _ k fun _ _ => rfl

theorem State.onlyAud_reports_clocked (s : State) (k : Aud) :
    State.OnlyAud k (s.reportAll k (s.aud k).clock.silenceReports) (s.clocked k) := by
  by_cases h : (s.aud k).clock.Loses
  · have hreports : (s.aud k).clock.silenceReports = [.clockLost] := if_pos h
    rw [State.clocked_loses h, hreports]
    exact ((State.onlyAud_signalBuilder _ k).trans (State.onlyAud_seqSendAll _ k _)).trans (State.onlyAud_modAud _ k _)
  · rw [State.clocked_stays h]
    exact State.onlyAud_modAud _ k _

theorem Auditorium.updated_rests {a : Auditorium} (h : ¬a.seq.state.isFollowing = true) (env : SeqEnv) :
    a.updated env = (a.seq, []) := by
  unfold Auditorium.updated
  split
  · rfl
  · exact Sequencer.update_rests h env _

/-- What follows the boundary of an auditorium whose Sequencer follows nothing changes at most its Report Writer. -/
theorem State.boundaryFollow_rests {s : State} {k : Aud} (h : ¬(s.aud k).seq.state.isFollowing = true) (o : Bool) :
    (s.boundaryFollow k o).aud k = { s.aud k with writer := ((s.boundaryFollow k o).aud k).writer } := by
  by_cases hdark : (s.aud k).unit.showState = .dark
  · rw [State.boundaryFollow_dark hdark, State.darkCheck_aud]
  · have haud := State.boundaryFollow_aud hdark o
    rw [Auditorium.updated_rests h] at haud
    refine haud.trans ?_
    simp [Auditorium.told]

theorem State.boundaryFollow_rests_sameWriter {s : State} {k : Aud} (h : ¬(s.aud k).seq.state.isFollowing = true)
    (hin : ∀ x, s.binding k .showRecord = some x → 511 ≤ x.limit.toNat) (o : Bool) :
    State.SameWriter k (s.boundaryFollow k o) s := by
  by_cases hdark : (s.aud k).unit.showState = .dark
  · exact State.sameWriter_of_book (s.onlyAud_boundaryFollow k o)
      (by rw [State.boundaryFollow_dark hdark, State.darkCheck_aud])
  · have hwriter := State.boundaryFollow_sameWriter hdark hin o
    rw [Auditorium.updated_rests h] at hwriter
    exact hwriter

theorem State.boundaryFollow_mixer (s : State) (k : Aud) (o : Bool) :
    ((s.boundaryFollow k o).aud k).mixer = (s.aud k).mixer := by
  by_cases hdark : (s.aud k).unit.showState = .dark
  · rw [State.boundaryFollow_dark hdark, State.darkCheck_aud]
  · rw [State.boundaryFollow_aud hdark]; rfl

theorem State.takeBoundary_running {s : State} (h : s.partState = .running) (k : Aud) (o : Bool) :
    s.takeBoundary k o = (s.clocked k).boundaryFollow k o := by
  rw [State.takeBoundary_eq, if_pos h]

theorem State.takeBoundary_clock (s : State) (k : Aud) (o : Bool) :
    ((s.takeBoundary k o).aud k).clock = ((s.aud k).clock.boundary s.houseTime).clock :=
  congrArg Auditorium.clock (s.takeBoundary_aud k o)

/-- Settles O14. -/
theorem silenceLeadsToFlywheelAndLost : Obligations.SilenceLeadsToFlywheelAndLost := by
  unfold Obligations.SilenceLeadsToFlywheelAndLost
  intro k o s hdue hrunning c q counts follows lost flew u
  have hcounts : counts ↔ c.state.counts = true := c.state.counts_iff.symm
  have hfollows : follows ↔ q.state.isFollowing = true := q.state.isFollowing_iff.symm
  have hlost : lost ↔ c.Loses := and_congr_left' hcounts
  have hflew : flew ↔ c.Coasts := and_congr_left' (not_congr hlost)
  have hu : u = s.reportAll k c.silenceReports := by
    simp only [u, Clock.silenceReports, hlost, hflew]
  have hrests (h : lost ∨ ¬follows) : ¬((s.clocked k).aud k).seq.state.isFollowing = true := by
    rw [State.clocked_seq]
    split
    · exact Sequencer.clearOrder_state _ _
    · next hkept => exact mt hfollows.mpr (h.resolve_left (mt hlost.mp hkept))
  have hsame (h : lost ∨ ¬follows) := State.boundaryFollow_rests (hrests h) o
  refine ⟨_, execFrameBoundary_due hdue o, ?_, ?_, fun h => ?_, ?_, fun h hin => ?_, fun h => ?_, fun h hrest => ?_,
    fun h => ⟨?_, ?_⟩, fun h hrest => ?_, fun h hfollow => ?_⟩
  · rw [State.takeBoundary_clock, Clock.boundary_silence]
    simp only [hcounts, c]
  · rw [State.takeBoundary_clock, Clock.boundary_state]
    simp only [hlost, hflew, c]
  · rw [State.takeBoundary_clock, Clock.boundary_slew _ (.inr (h.imp hlost.mp hflew.mp))]
  · rw [State.takeBoundary_running hrunning, hu]
    obtain ⟨added, h⟩ := ((s.onlyAud_reports_clocked k).trans ((s.clocked k).onlyAud_boundaryFollow k o)).inFlight
    exact ⟨added, h.symm⟩
  · rw [State.takeBoundary_running hrunning, hu]
    refine ((State.boundaryFollow_rests_sameWriter (hrests h) ?_ o).trans (s.clocked_sameWriter k)).writer
    rw [State.binding_congr (s.onlyAud_clocked k).bindings]
    exact hin
  · rw [State.takeBoundary_running hrunning, State.boundaryFollow_mixer, State.clocked_mixer, if_neg (mt hlost.mpr h)]
  · rw [State.takeBoundary_running hrunning, hsame (.inr hrest)]
    exact ⟨(s.clocked_seq k).trans (if_neg (mt hlost.mpr h)), (s.clocked_builder k).trans (if_neg (mt hlost.mpr h))⟩
  · rw [State.takeBoundary_running hrunning, State.boundaryFollow_mixer, State.clocked_mixer, if_pos (hlost.mp h)]
    rfl
  · rw [State.takeBoundary_running hrunning, hsame (.inl h)]
    refine ((s.clocked_builder k).trans (if_pos (hlost.mp h))).trans ?_
    rw [Sequencer.clearOrder_sends]
    simp only [hfollows]
    rfl
  · rw [State.takeBoundary_running hrunning, hsame (.inl h)]
    refine ((s.clocked_seq k).trans (if_pos (hlost.mp h))).trans ?_
    rw [Sequencer.clearOrder_rests (mt hfollows.mpr hrest)]
  · have hseq : ((s.takeBoundary k o).aud k).seq = { q.dropReads with active := noActive, state := .idle } := by
      rw [State.takeBoundary_running hrunning, hsame (.inl h)]
      refine ((s.clocked_seq k).trans (if_pos (hlost.mp h))).trans ?_
      rw [Sequencer.clearOrder_follows (hfollows.mp hfollow)]
    rw [hseq]
    exact ⟨rfl, fun ch => noActive_get ch⟩

end Sys2Proof.Machine
end

section
/-! SUPPORT. What a boundary asks of host memory, and the status snapshot (R146, R150, R151, R192). -/

namespace Sys2Proof.Machine

/-- An access that a Sequencer's work can issue. -/
def Purpose.ofSequencer : Purpose → Bool
  | .reportWrite => true
  | .entryRead _ _ => true
  | .scanRead _ _ => true
  | .lookbackRead _ _ => true
  | .textRead _ _ => true
  | _ => false

theorem Access.IsReport.ofSequencer {a : Access} (h : a.IsReport) : a.purpose.ofSequencer = true := by
  rw [h.2]; rfl

theorem State.makes_access_ofSequencer (s : State) (k : Aud) (role : Role) (offset length : Nat) (data : List Byte)
    {purpose : Purpose} (hp : purpose.ofSequencer = true) :
    ∃ made, State.Makes k s (s.access k role offset length data purpose).1 made
      ∧ ∀ a ∈ made, a.purpose.ofSequencer = true := by
  obtain ⟨made, hmakes, hkinds⟩ := s.makes_access k role offset length data purpose
  exact ⟨made, hmakes, fun a ha => (hkinds a ha).elim Access.IsReport.ofSequencer fun h => by rw [h.2]; exact hp⟩

theorem State.makes_askBuilder (s : State) (k : Aud) (f : Builder → Builder) :
    State.Makes k s (s.askBuilder k f) [] := by
  unfold State.askBuilder
  split
  · exact s.makes_modAud k k _
  · exact .refl k s

theorem State.makes_seqSend_ofSequencer (s : State) (k : Aud) (o : SeqOut) :
    ∃ made, State.Makes k s (s.seqSend k o) made ∧ ∀ a ∈ made, a.purpose.ofSequencer = true := by
  have hask (f : Builder → Builder) : ∃ made, State.Makes k s (s.askBuilder k f) made
      ∧ ∀ a ∈ made, a.purpose.ofSequencer = true := ⟨[], s.makes_askBuilder k f, fun _ h => nomatch h⟩
  cases o with
  | start => exact hask _
  | remove => exact hask _
  | clear => exact hask _
  | textReady => exact hask _
  | report r =>
    obtain ⟨made, hmakes, hreports⟩ := s.makes_report k r
    exact ⟨made, hmakes, fun a ha => (hreports a ha).ofSequencer⟩
  | readEntry => exact s.makes_access_ofSequencer k _ _ _ _ rfl
  | readScan => exact s.makes_access_ofSequencer k _ _ _ _ rfl
  | readLookback => exact s.makes_access_ofSequencer k _ _ _ _ rfl
  | readText => exact s.makes_access_ofSequencer k _ _ _ _ rfl

theorem State.makes_seqSendAll_ofSequencer (s : State) (k : Aud) (l : List SeqOut) :
    ∃ made, State.Makes k s (s.seqSendAll k l) made ∧ ∀ a ∈ made, a.purpose.ofSequencer = true := by
  induction l generalizing s with
  | nil => exact ⟨[], .refl k s, fun _ h => nomatch h⟩
  | cons o rest ih =>
    obtain ⟨m, hm, hpurposes⟩ := s.makes_seqSend_ofSequencer k o
    obtain ⟨n, hn, hrest⟩ := ih (s.seqSend k o)
    exact ⟨m ++ n, hm.trans hn, fun a ha => (List.mem_append.mp ha).elim (hpurposes a) (hrest a)⟩

theorem State.makes_showTimeUpdate (s : State) (k : Aud) :
    ∃ made, State.Makes k s (s.showTimeUpdate k) made ∧ ∀ a ∈ made, a.purpose.ofSequencer = true := by
  obtain ⟨made, hmakes, hpurposes⟩ := s.makes_seqSendAll_ofSequencer k ((s.aud k).updated (s.seqEnv k)).2
  rw [State.showTimeUpdate_eq]
  exact ⟨made, hmakes.then_modAud _, hpurposes⟩

theorem State.makes_signalBuilder (s : State) (k : Aud) : State.Makes k s (s.signalBuilder k) [] := by
  unfold State.signalBuilder
  split
  · exact s.makes_modAud k k _
  · exact .refl k s

theorem State.makes_toBuilder (s : State) (k : Aud) {l : List SeqOut} (h : ∀ o ∈ l, o.toBuilder = true) :
    State.Makes k s (s.seqSendAll k l) [] := by
  obtain ⟨made, hmakes, _⟩ := s.makes_seqSendAll_ofSequencer k l
  have hflight := hmakes.inFlight
  rw [(s.seqSendAll_toBuilder k h).2] at hflight
  rwa [List.self_eq_append_right.mp hflight] at hmakes

/-- The clock's work at a boundary issues its reports. -/
theorem State.makes_clocked (s : State) (k : Aud) :
    ∃ made, State.Makes k s (s.clocked k) made ∧ ∀ a ∈ made, a.IsReport := by
  obtain ⟨made, hmakes, hreports⟩ := s.makes_reportAll k (s.aud k).clock.silenceReports
  refine ⟨made, ?_, hreports⟩
  by_cases h : (s.aud k).clock.Loses
  · have hlost : (s.aud k).clock.silenceReports = [.clockLost] := if_pos h
    rw [hlost] at hmakes
    have hsent := (hmakes.trans (State.makes_signalBuilder _ k)).trans
      (State.makes_toBuilder _ k ((s.aud k).seq.clearOrder_toBuilder (s.seqEnv k)))
    rw [List.append_nil, List.append_nil] at hsent
    rw [State.clocked_loses h]
    exact hsent.then_modAud _
  · rw [State.clocked_stays h]
    exact hmakes.then_modAud _

/-! ## The snapshot (R151, R192) -/

theorem Clock.boundary_lost_iff (c : Clock) (h : Word) :
    ((c.boundary h).clock.state = .lost ∧ c.state ≠ .lost) ↔ c.Loses := by
  rw [Clock.boundary_state]
  constructor
  · intro ⟨hlost, hbefore⟩
    by_contra hkept
    rw [if_neg hkept] at hlost
    split at hlost
    · exact nomatch hlost
    · exact hbefore hlost
  · intro hloses
    exact ⟨if_pos hloses, fun hlost => by have := hloses.1; rw [hlost] at this; exact nomatch this⟩

theorem Clock.boundary_flew_iff {c : Clock} (hkept : ¬c.Loses) (h : Word) :
    ((c.boundary h).clock.state = .flywheel ∧ c.state ≠ .flywheel) ↔ c.Coasts := by
  rw [Clock.boundary_state, if_neg hkept]
  constructor
  · intro ⟨hflew, hbefore⟩
    by_contra hstays
    rw [if_neg hstays] at hflew
    exact hbefore hflew
  · intro hcoasts
    exact ⟨if_pos hcoasts, fun hflew => by have := hcoasts.2.1; rw [hflew] at this; exact nomatch this⟩

/-! The snapshot by its offsets (R192). -/

@[simp] theorem leWord_length (v : Word) : (leWord v).length = 4 := by simp [leWord]
@[simp] theorem leNat16_length (n : Nat) : (leNat16 n).length = 2 := by simp [leNat16, leHalf]
@[simp] theorem leInt_length (v : Int) : (leInt v).length = 4 := by simp [leInt]

section Layout
variable (y : Auditorium)

theorem snapshotBytes_length : (snapshotBytes y).length = 192 := by
  unfold snapshotBytes
  simp

theorem snapshotBytes_generation : ((snapshotBytes y).drop (320 - 320)).take 4 = leWord y.unit.ackGeneration := by
  unfold snapshotBytes
  simp

theorem snapshotBytes_states : ((snapshotBytes y).drop (324 - 320)).take 4
    = [y.unit.showState.code, y.clock.record.state.code, y.seq.state.code, linkByte y.link] := by
  unfold snapshotBytes
  simp [List.take_append]

theorem snapshotBytes_clock : ((snapshotBytes y).drop (328 - 320)).take 9
    = leWord y.clock.record.showTime ++ leInt y.clock.record.eps ++ [BitVec.ofInt 8 y.clock.record.tally] := by
  unfold snapshotBytes
  simp [List.drop_append, List.take_append, List.drop_of_length_le, List.take_of_length_le]

theorem snapshotBytes_tag : ((snapshotBytes y).drop (337 - 320)).take 7
    = [y.unit.tag.code, BitVec.ofNat 8 y.unit.tag.untagCount, 0] ++ leNat16 y.unit.tag.firstField ++ leNat16 y.unit.tag.lastField := by
  unfold snapshotBytes
  simp [List.drop_append, List.take_append, List.drop_of_length_le, List.take_of_length_le]

theorem snapshotBytes_cursor : ((snapshotBytes y).drop (344 - 320)).take 4
    = leNat16 y.seq.cursor ++ leNat16 y.seq.listCount := by
  unfold snapshotBytes
  simp [List.drop_append, List.take_append, List.drop_of_length_le, List.take_of_length_le]

theorem snapshotBytes_takes : ((snapshotBytes y).drop (348 - 320)).take 12
    = [y.mixer.ringA.take, y.mixer.ringB.take, y.mixer.bed.take].flatMap leWord := by
  unfold snapshotBytes
  simp [List.drop_append, List.take_append, List.drop_of_length_le, List.take_of_length_le]

theorem snapshotBytes_writer : ((snapshotBytes y).drop (360 - 320)).take 8
    = leWord y.writer.writeCount ++ leWord y.writer.missed := by
  unfold snapshotBytes
  simp [List.drop_append, List.take_append, List.drop_of_length_le, List.take_of_length_le]

theorem snapshotBytes_counts : ((snapshotBytes y).drop (368 - 320)).take 64
    = [y.receiver.badReports, y.clock.record.seats, y.seq.staleCues, y.builder.lateCues, y.seq.crowded,
        y.builder.overflow, y.seq.truncated, y.seq.badCues, y.mixer.ringA.underruns, y.mixer.ringB.underruns,
        y.mixer.bed.underruns, y.mixer.clippedA, y.mixer.clippedB, y.builder.framesBuilt, y.link.dropped,
        y.link.retries].flatMap leWord := by
  unfold snapshotBytes
  simp [List.drop_append, List.take_append, List.drop_of_length_le, List.take_of_length_le]

theorem snapshotBytes_rest : ((snapshotBytes y).drop (432 - 320)).take 80 = List.replicate 80 0 := by
  unfold snapshotBytes
  simp [List.drop_append, List.drop_of_length_le, List.take_of_length_le]

end Layout

theorem snapshotBytes_empty {y : Auditorium} (h : y.unit.tag = .empty) :
    ((snapshotBytes y).drop (337 - 320)).take 7 = List.replicate 7 0 := by
  rw [snapshotBytes_tag, h]
  decide

theorem snapshotBytes_firstSet {y : Auditorium} {first : Nat} (h : y.unit.tag = .firstSet first) :
    ((snapshotBytes y).drop (337 - 320)).take 7 = [1, 0, 0] ++ leNat16 first ++ [0, 0] := by
  have hzero : leNat16 0 = [0, 0] := by decide
  rw [snapshotBytes_tag, h, ← hzero]
  rfl

theorem snapshotBytes_rangeSet {y : Auditorium} {first last : Nat} {untags : List Nat}
    (h : y.unit.tag = .rangeSet first last untags) : ((snapshotBytes y).drop (337 - 320)).take 7
      = [2, BitVec.ofNat 8 untags.length, 0] ++ leNat16 first ++ leNat16 last := by
  rw [snapshotBytes_tag, h]
  rfl

theorem State.boundarySnapshot_made {s : State} {k : Aud} {x : Binding} (hx : s.binding k .showRecord = some x)
    (hl : 511 ≤ x.limit.toNat) (hfirst : (s.aud k).unit.firstHead = true) :
    ∃ a, State.Makes k s (s.boundarySnapshot k) [a] ∧ a.role = .showRecord ∧ a.offset = 320 ∧ a.length = 192
      ∧ a.data = snapshotBytes (s.aud k) ∧ a.purpose = .snapshotWrite ∧ a.tag = s.nextTag := by
  unfold State.boundarySnapshot
  rw [if_pos hfirst]
  exact State.makes_access_made hx hl _ _

theorem State.boundarySnapshot_keeps {s : State} {k : Aud} {x : Binding} (hx : s.binding k .showRecord = some x)
    (hl : 511 ≤ x.limit.toNat) (j : Aud) : (s.boundarySnapshot k).aud j = s.aud j := by
  unfold State.boundarySnapshot State.snapshot
  split
  · rw [State.access_made hx hl]; rfl
  · rfl

theorem State.boundarySnapshot_before_head {s : State} {k : Aud} (h : (s.aud k).unit.firstHead = false) :
    s.boundarySnapshot k = s := by
  unfold State.boundarySnapshot
  exact if_neg (by rw [h]; exact Bool.false_ne_true)

theorem State.Makes.issued_as {k : Aud} {s t : State} {made : List Access} (h : State.Makes k s t made) {a : Access}
    (ha : a ∈ made) {role : Role} {offset length : Nat} {data : List Byte} {purpose : Purpose} (hrole : a.role = role)
    (hoffset : a.offset = offset) (hlength : a.length = length) (hdata : a.data = data) (hpurpose : a.purpose = purpose) :
    s.Issued t k role offset length data purpose := by
  have hissued := h.issued ha
  rwa [hrole, hoffset, hlength, hdata, hpurpose] at hissued

/-- What the boundary of a lit auditorium issues: reports, the head read, the snapshot once a head was read, and what the
Sequencer asks for. `y` is the auditorium as the snapshot finds it. -/
theorem State.makes_boundaryFollow {s : State} {k : Aud} {x : Binding} (hlit : (s.aud k).unit.showState ≠ .dark)
    (hx : s.binding k .showRecord = some x) (hl : 511 ≤ x.limit.toNat) (o : Bool) :
    ∃ made, State.Makes k s (s.boundaryFollow k o) made
      ∧ (∃ a ∈ made, a.role = .showRecord ∧ a.offset = 0 ∧ a.length = 64 ∧ a.data = [] ∧ a.purpose = .headRead)
      ∧ ((s.aud k).unit.firstHead = false → ∀ a ∈ made, a.purpose ≠ .snapshotWrite)
      ∧ ((s.aud k).unit.firstHead = true → ∃ a ∈ made, a.role = .showRecord ∧ a.offset = 320 ∧ a.length = 192
          ∧ a.purpose = .snapshotWrite
          ∧ a.data = snapshotBytes (if o then s.aud k else (s.boundaryFollow k o).aud k)) := by
  obtain ⟨a, hread, hrole, hoffset, hlength, hdata, hpurpose, _⟩ :=
    State.makes_access_made hx (offset := 0) (length := 64) (by omega) [] .headRead
  have hhead : State.Makes k s (s.readHead k) [a] := hread
  have hsame : (s.readHead k).aud k = s.aud k := by
    show (State.access s k .showRecord 0 64 [] .headRead).1.aud k = _
    rw [State.access_made hx (by omega)]
    rfl
  have hrecord {t : State} (ht : t.bindings = s.bindings) : t.binding k .showRecord = some x :=
    (State.binding_congr ht k _).trans hx
  have hofSequencer {made : List Access} (h : ∀ a ∈ made, a.purpose.ofSequencer = true) :
      ∀ a ∈ made, a.purpose ≠ .snapshotWrite := fun a ha hp => by have := h a ha; rw [hp] at this; exact nomatch this
  have hnotshot : a.purpose ≠ .snapshotWrite := by rw [hpurpose]; exact fun h => nomatch h
  rw [State.boundaryFollow_lit hlit]
  cases o with
  | false =>
    obtain ⟨m, hm, hpurposes⟩ := (s.readHead k).makes_showTimeUpdate k
    have hupdated := hhead.trans hm
    have hunit : (((s.readHead k).showTimeUpdate k).aud k).unit = (s.aud k).unit := by
      rw [State.showTimeUpdate_aud, hsame]; rfl
    cases hfirst : (s.aud k).unit.firstHead with
    | false =>
      have hsilent := State.boundarySnapshot_before_head (hunit.symm ▸ hfirst)
      refine ⟨[a] ++ m, ?_, ⟨a, List.mem_cons_self, hrole, hoffset, hlength, hdata, hpurpose⟩,
        fun _ b hb => ?_, fun h => nomatch h⟩
      · exact hsilent.symm ▸ hupdated
      · obtain hb | hb := List.mem_cons.mp hb
        · rw [hb]; exact hnotshot
        · exact hofSequencer hpurposes b hb
    | true =>
      obtain ⟨b, hb, hbrole, hboffset, hblength, hbdata, hbpurpose, _⟩ := State.boundarySnapshot_made
        (hrecord hupdated.bindings) hl (hunit.symm ▸ hfirst)
      refine ⟨[a] ++ m ++ [b], hupdated.trans hb, ⟨a, List.mem_cons_self, hrole, hoffset, hlength, hdata, hpurpose⟩,
        (fun h => nomatch h), fun _ => ⟨b, by simp, hbrole, hboffset, hblength, hbpurpose, hbdata.trans ?_⟩⟩
      rw [if_neg Bool.false_ne_true]
      exact congrArg snapshotBytes (State.boundarySnapshot_keeps (hrecord hupdated.bindings) hl k).symm
  | true =>
    cases hfirst : (s.aud k).unit.firstHead with
    | false =>
      rw [if_pos rfl, State.boundarySnapshot_before_head (hsame.symm ▸ hfirst)]
      obtain ⟨m, hm, hpurposes⟩ := (s.readHead k).makes_showTimeUpdate k
      refine ⟨[a] ++ m, hhead.trans hm, ⟨a, List.mem_cons_self, hrole, hoffset, hlength, hdata, hpurpose⟩,
        fun _ b hb => ?_, fun h => nomatch h⟩
      obtain hb | hb := List.mem_cons.mp hb
      · rw [hb]; exact hnotshot
      · exact hofSequencer hpurposes b hb
    | true =>
      obtain ⟨b, hb, hbrole, hboffset, hblength, hbdata, hbpurpose, _⟩ := State.boundarySnapshot_made
        (hrecord hhead.bindings) hl (hsame.symm ▸ hfirst)
      obtain ⟨m, hm, _⟩ := ((s.readHead k).boundarySnapshot k).makes_showTimeUpdate k
      refine ⟨[a] ++ [b] ++ m, (hhead.trans hb).trans hm,
        ⟨a, List.mem_cons_self, hrole, hoffset, hlength, hdata, hpurpose⟩, (fun h => nomatch h),
        fun _ => ⟨b, by simp, hbrole, hboffset, hblength, hbpurpose, hbdata.trans ?_⟩⟩
      rw [hsame, if_pos rfl]

theorem State.checking_iff (s : State) (k : Aud) :
    s.checking k = true ↔ ∃ a ∈ s.inFlight, a.aud = some k ∧ a.purpose = .darkCheckRead := by
  simp [State.checking]

/-- The check of a DARK auditorium's descriptor. -/
theorem State.darkCheck_made {s : State} {k : Aud} (h : ¬s.checking k = true) : ∃ a,
    (s.darkCheck k).inFlight = s.inFlight ++ [a] ∧ a.purpose = .darkCheckRead
      ∧ s.TableIssued (s.darkCheck k) (some k) .showRecord (BitVec.ofNat 8 (k.val + 1)) 0 16 [] .darkCheckRead := by
  unfold State.darkCheck
  rw [if_neg h]
  exact ⟨_, rfl, rfl, _, List.mem_append_right _ (List.mem_singleton.mpr rfl), Nat.le_refl _, rfl, rfl, rfl, rfl, rfl,
    rfl, rfl, rfl⟩

theorem State.TableIssued.before {s t u : State} {aud : Option Aud} {role : Role} {selector : Byte}
    {within length : Nat} {data : List Byte} {purpose : Purpose} (htag : s.nextTag ≤ t.nextTag)
    (htime : t.houseTime = s.houseTime) (hbase : t.latchedBase = s.latchedBase)
    (h : t.TableIssued u aud role selector within length data purpose) :
    s.TableIssued u aud role selector within length data purpose := by
  obtain ⟨a, ha, hafter, hissued, haud, hrole, hselector, haddress, hrest⟩ := h
  exact ⟨a, ha, Nat.le_trans htag hafter, hissued.trans htime, haud, hrole, hselector, by rw [← hbase]; exact haddress,
    hrest⟩

/-- R61: the auditorium as the snapshot of a boundary finds it: as the boundary leaves it, or before the walk. -/
def State.snapshotted (s : State) (k : Aud) (o : Bool) : Auditorium :=
  if o then (s.clocked k).aud k else ((s.clocked k).boundaryFollow k o).aud k

section Snapshotted
variable {s : State} {k : Aud} (hlit : (s.aud k).unit.showState ≠ .dark)
  (hin : ∀ x, s.binding k .showRecord = some x → 511 ≤ x.limit.toNat)
include hlit

theorem State.boundaryFollow_clocked_aud (o : Bool) : ((s.clocked k).boundaryFollow k o).aud k
    = { (s.clocked k).aud k with
        seq := (((s.clocked k).boundaryFollow k o).aud k).seq
        builder := (((s.clocked k).boundaryFollow k o).aud k).builder
        writer := (((s.clocked k).boundaryFollow k o).aud k).writer } := by
  have hlit' : ((s.clocked k).aud k).unit.showState ≠ .dark := by rw [State.clocked_aud]; exact hlit
  rw [State.boundaryFollow_aud hlit' o]
  rfl

theorem State.snapshotted_clock (o : Bool) :
    (s.snapshotted k o).clock = (((s.clocked k).boundaryFollow k o).aud k).clock := by
  unfold State.snapshotted
  rw [State.boundaryFollow_clocked_aud hlit o]
  split <;> rfl

omit hlit in
include hin in
/-- A clock that is lost leaves the walk nothing to do, so that the snapshot finds the auditorium as it is left. -/
theorem State.snapshotted_after {o : Bool} (h : o = false ∨ (s.aud k).clock.Loses) :
    s.snapshotted k o = ((s.clocked k).boundaryFollow k o).aud k := by
  unfold State.snapshotted
  cases o with
  | false => exact if_neg Bool.false_ne_true
  | true =>
    have hlost := h.resolve_left fun h => nomatch h
    have hrests : ¬((s.clocked k).aud k).seq.state.isFollowing = true := by
      rw [State.clocked_seq, if_pos hlost]
      exact Sequencer.clearOrder_state _ _
    have hwriter := (State.boundaryFollow_rests_sameWriter hrests (by
      rw [State.binding_congr (s.onlyAud_clocked k).bindings]; exact hin) true).writer
    rw [if_pos rfl, State.boundaryFollow_rests hrests, hwriter]

theorem State.snapshotted_before (h : ¬(s.aud k).clock.Loses) : s.snapshotted k true
    = { ((s.clocked k).boundaryFollow k true).aud k with
        seq := (s.aud k).seq, builder := (s.aud k).builder
        writer := ((s.reportAll k (s.aud k).clock.silenceReports).aud k).writer } := by
  unfold State.snapshotted
  rw [if_pos rfl, State.boundaryFollow_clocked_aud hlit, State.clocked_stays h, State.aud_modAud_same,
    State.reportAll_aud]
  rfl

end Snapshotted

/-- Settles O16. -/
theorem boundaryReadsHeadOrDescriptor : Obligations.BoundaryReadsHeadOrDescriptor := by
  unfold Obligations.BoundaryReadsHeadOrDescriptor
  intro k o s hdue hrunning
  have hrun := State.takeBoundary_running hrunning k o
  obtain ⟨reports, hclocked, hreports⟩ := s.makes_clocked k
  have hunit : ((s.clocked k).aud k).unit = (s.aud k).unit := by rw [State.clocked_aud]
  have hnew {a : Access} (ha : a ∈ (s.clocked k).inFlight) (hp : a.purpose ≠ .reportWrite) : a ∈ s.inFlight := by
    rw [hclocked.inFlight] at ha
    exact (List.mem_append.mp ha).resolve_right fun h => hp (hreports a h).2
  refine ⟨fun hdark => ⟨_, execFrameBoundary_due hdue o, ?_⟩, fun x hlit hx hl => ⟨_, execFrameBoundary_due hdue o, ?_⟩⟩
  · rw [hrun, State.boundaryFollow_dark (hunit.symm ▸ hdark)]
    by_cases hchecking : (s.clocked k).checking k = true
    · have hkept : (s.clocked k).darkCheck k = s.clocked k := if_pos hchecking
      obtain ⟨b, hb, hbaud, hbpurpose⟩ := (State.checking_iff _ k).mp hchecking
      have hbefore := hnew hb (by rw [hbpurpose]; exact fun h => nomatch h)
      rw [hkept]
      refine ⟨fun h => absurd hbpurpose (h b hbefore hbaud), fun _ a ha hp => hnew ha ?_, fun a ha hp => hnew ha ?_⟩
      · rw [hp]; exact fun h => nomatch h
      · obtain hp | hp := hp <;> rw [hp] <;> exact fun h => nomatch h
    · obtain ⟨a, hflight, hpurpose, hissued⟩ := State.darkCheck_made hchecking
      refine ⟨fun _ => hissued.before hclocked.nextTag hclocked.houseTime (s.onlyAud_clocked k).latchedBase,
        fun ⟨b, hb, hcheck⟩ => absurd ((State.checking_iff _ k).mpr ⟨b, ?_, hcheck⟩) hchecking, fun b hb hp => ?_⟩
      · rw [hclocked.inFlight]
        exact List.mem_append_left _ hb
      · rw [hflight] at hb
        obtain hb | hb := List.mem_append.mp hb
        · refine hnew hb ?_
          obtain hp | hp := hp <;> rw [hp] <;> exact fun h => nomatch h
        · rw [List.mem_singleton.mp hb, hpurpose] at hp
          exact hp.elim (fun h => nomatch h) fun h => nomatch h
  · have hlit' : ((s.clocked k).aud k).unit.showState ≠ .dark := by rw [hunit]; exact hlit
    have hx' : (s.clocked k).binding k .showRecord = some x := (State.binding_congr hclocked.bindings k _).trans hx
    obtain ⟨made, hmakes, ⟨a, ha, hrole, hoffset, hlength, hdata, hpurpose⟩, hbefore, hafter⟩ :=
      State.makes_boundaryFollow hlit' hx' hl o
    have hall := hclocked.trans hmakes
    rw [hunit] at hbefore hafter
    rw [hrun]
    refine ⟨hall.issued_as (List.mem_append_right _ ha) hrole hoffset hlength hdata hpurpose, fun hfirst b hb hp => ?_,
      fun hfirst => ?_⟩
    · rw [hmakes.inFlight] at hb
      obtain hb | hb := List.mem_append.mp hb
      · exact hnew hb (by rw [hp]; exact fun h => nomatch h)
      · exact absurd hp (hbefore hfirst b hb)
    · obtain ⟨b, hb, hbrole, hboffset, hblength, hbpurpose, hbdata⟩ := hafter hfirst
      have hclock := State.snapshotted_clock hlit o
      have hin : ∀ z, s.binding k .showRecord = some z → 511 ≤ z.limit.toNat := fun z hz => by
        rw [hx] at hz; cases hz; exact hl
      have hstate : (((s.clocked k).boundaryFollow k o).aud k).clock = ((s.aud k).clock.boundary s.houseTime).clock := by
        rw [← hrun]; exact s.takeBoundary_clock k o
      have hbdata' : b.data = snapshotBytes (s.snapshotted k o) := hbdata
      obtain ⟨y, hy⟩ : ∃ y, s.snapshotted k o = y := ⟨_, rfl⟩
      rw [hy] at hclock hbdata'
      refine ⟨y, snapshotBytes y,
        hall.issued_as (List.mem_append_right _ hb) hbrole hboffset hblength hbdata' hbpurpose, ?_⟩
      intro lost flew r at'
      have hlost : lost ↔ (s.aud k).clock.Loses := by
        simp only [lost, hstate]
        exact Clock.boundary_lost_iff _ _
      have hr : r = y.clock.record := by rw [hclock]
      refine ⟨fun h => hy.symm.trans (State.snapshotted_after hin (h.imp_right hlost.mp)), fun ho h => ?_, ?_⟩
      · have hkept := mt hlost.mpr h
        have hflew : flew ↔ (s.aud k).clock.Coasts := by
          simp only [flew, hstate]
          exact Clock.boundary_flew_iff hkept _
        subst ho
        rw [← hy, State.snapshotted_before hlit hkept, Clock.silenceReports, if_neg hkept]
        simp only [hflew]
      · clear_value r
        subst hr
        exact ⟨snapshotBytes_length y, snapshotBytes_generation y, snapshotBytes_states y, snapshotBytes_clock y,
          snapshotBytes_empty, fun _ => snapshotBytes_firstSet, fun _ _ _ => snapshotBytes_rangeSet,
          snapshotBytes_cursor y, snapshotBytes_takes y, snapshotBytes_writer y, snapshotBytes_counts y,
          snapshotBytes_rest y⟩

end Sys2Proof.Machine
end

section
/-! SUPPORT. The walk (R53 to R58): what issue takes from the window, and the refill. -/

namespace Sys2Proof.Machine

/-! ## One slot (R54 to R56) -/

/-- Screens and counts of `q` are those that `r` records of the work done since `base`. -/
structure Taken.Leaves (base : Sequencer) (r : Taken) (q : Sequencer) : Prop where
  screens : ∀ c : Channel, q.active[c] = r.screens c
  stale : q.staleCues = base.staleCues + BitVec.ofNat 32 r.stale
  bad : q.badCues = base.badCues + BitVec.ofNat 32 r.bad
  crowded : q.crowded = base.crowded + BitVec.ofNat 32 r.crowded

/-- What the issue of a slot leaves alone. -/
structure Sequencer.KeepsList (q q' : Sequencer) : Prop where
  state : q'.state = q.state
  listCount : q'.listCount = q.listCount
  listEnd : q'.listEnd = q.listEnd
  seekGen : q'.seekGen = q.seekGen
  seek : q'.seek = q.seek
  truncated : q'.truncated = q.truncated

theorem Sequencer.KeepsList.refl (q : Sequencer) : q.KeepsList q := ⟨rfl, rfl, rfl, rfl, rfl, rfl⟩

theorem Sequencer.KeepsList.trans {q r u : Sequencer} (h : q.KeepsList r) (g : r.KeepsList u) : q.KeepsList u :=
  ⟨g.state.trans h.state, g.listCount.trans h.listCount, g.listEnd.trans h.listEnd, g.seekGen.trans h.seekGen,
    g.seek.trans h.seek, g.truncated.trans h.truncated⟩

/-- One step of the walk: the Sequencer `q1` with what it sends `outs` is the reading `r'` after `r`. -/
structure Taken.Steps (base q : Sequencer) (r : Taken) (q1 : Sequencer) (outs : List SeqOut) (r' : Taken) : Prop where
  leaves : Taken.Leaves base r' q1
  sent : r'.sent = r.sent ++ outs
  toBuilder : ∀ o ∈ outs, o.toBuilder = true
  keeps : q.KeepsList q1
  cursor : q1.cursor = q.cursor
  window : q1.window = q.window

section One
variable {base q : Sequencer} {r : Taken} (h : Taken.Leaves base r q)
include h

theorem Taken.Leaves.passes : Taken.Steps base q r q [] r :=
  ⟨h, (List.append_nil _).symm, (fun _ h => nomatch h), .refl q, rfl, rfl⟩

theorem Taken.Leaves.set (c : Channel) (l : List ActiveCue) : ∀ d : Channel,
    ({ q with active := q.active.set c l } : Sequencer).active[d] = Function.update r.screens c l d := by
  intro d
  simp only [Function.update_apply, ← h.screens]
  by_cases hd : d = c
  · subst hd; simp
  · rw [if_neg hd]
    exact Vector.getElem_set_ne c.isLt d.isLt fun h => hd (Fin.ext h.symm)

/-- R55: a CLEAR cue empties its channel's screen. -/
theorem Taken.Leaves.issueClear (c : Channel) : Taken.Steps base q r (q.issueClear c).1 (q.issueClear c).2
    { r with
      screens := Function.update r.screens c []
      sent := r.sent ++ (r.screens c).map (fun y => .remove c y.cue .clearCue) ++ [.clear c] } where
  leaves := ⟨h.set c [], h.stale, h.bad, h.crowded⟩
  sent := by rw [← h.screens c, List.append_assoc]; rfl
  toBuilder := fun o ho => by
    obtain ho | ho := List.mem_append.mp ho
    · obtain ⟨a, _, rfl⟩ := List.mem_map.mp ho; rfl
    · rw [List.mem_singleton.mp ho]; rfl
  keeps := ⟨rfl, rfl, rfl, rfl, rfl, rfl⟩
  cursor := rfl
  window := rfl

/-- R56: a CAPTION joins its channel's screen; a full one first loses its oldest cue. -/
theorem Taken.Leaves.issueCaption (env : SeqEnv) (x : Slot) (e : CueEntry) :
    Taken.Steps base q r (q.issueCaption env x e).1 (q.issueCaption env x e).2
      (if 4 ≤ (r.screens e.channelOf).length then
        { r with
          screens := Function.update r.screens e.channelOf ((r.screens e.channelOf).drop 1 ++ [activeOf env x e])
          sent := r.sent ++ ((r.screens e.channelOf).take 1).map (fun y => .remove e.channelOf y.cue .displaced)
            ++ [.start e.channelOf (activeOf env x e).cue false (decide (x.state = .loaded))]
          crowded := r.crowded + 1 }
      else
        { r with
          screens := Function.update r.screens e.channelOf (r.screens e.channelOf ++ [activeOf env x e])
          sent := r.sent
            ++ [.start e.channelOf (activeOf env x e).cue false (decide (x.state = .loaded))] }) := by
  have hcrowded : q.crowded + 1 = base.crowded + BitVec.ofNat 32 (r.crowded + 1) := by
    rw [h.crowded]; bv_omega
  unfold Sequencer.issueCaption
  simp only
  rw [← h.screens]
  cases hscreen : q.active[e.channelOf] with
  | nil =>
    rw [if_neg (by simp)]
    exact ⟨⟨h.set _ _, h.stale, h.bad, h.crowded⟩, rfl,
      fun o ho => by rw [List.mem_singleton.mp ho]; rfl, ⟨rfl, rfl, rfl, rfl, rfl, rfl⟩, rfl, rfl⟩
  | cons oldest rest =>
    by_cases hfull : 3 ≤ rest.length
    · rw [if_pos (by simpa using hfull)]
      simp only [if_pos hfull]
      refine ⟨⟨h.set _ _, h.stale, h.bad, hcrowded⟩, ?_, fun o ho => ?_, ⟨rfl, rfl, rfl, rfl, rfl, rfl⟩, rfl, rfl⟩
      · rw [List.append_assoc]; rfl
      · obtain rfl | ho := List.mem_cons.mp ho
        · rfl
        · rw [List.mem_singleton.mp ho]; rfl
    · rw [if_neg (by simpa using hfull)]
      simp only [if_neg hfull]
      exact ⟨⟨h.set _ _, h.stale, h.bad, h.crowded⟩, rfl,
        fun o ho => by rw [List.mem_singleton.mp ho]; rfl, ⟨rfl, rfl, rfl, rfl, rfl, rfl⟩, rfl, rfl⟩

/-- R54: the entry taken from a slot meets the first case that fits. -/
theorem Taken.Leaves.issueSlot (env : SeqEnv) (now : Word) {x : Slot} {e : CueEntry} (he : x.entry = some e) :
    Taken.Steps base q r (q.issueSlot env now x e).1 (q.issueSlot env now x e).2
      (Taken.next env.mask env.epoch now r x) := by
  have hkind : e.kind = 2#8 ↔ (e.kind == 2) = true := by simp
  have hmask : env.mask.getLsbD (Fin.ofNat 4 e.channel.toNat).val = false
      ↔ (!captionEnabled env.mask e.channelOf) = true := by rw [Bool.not_eq_true']; rfl
  unfold Sequencer.issueSlot Taken.next
  simp only [he]
  by_cases hretracted : x.retracted = true
  · rw [if_pos hretracted, if_pos hretracted]
    exact h.passes
  rw [if_neg hretracted, if_neg hretracted]
  by_cases hbad : x.bad = true
  · rw [if_pos hbad, if_pos hbad]
    exact ⟨⟨h.screens, h.stale, by rw [h.bad]; bv_omega, h.crowded⟩, (List.append_nil _).symm, (fun _ h => nomatch h),
      ⟨rfl, rfl, rfl, rfl, rfl, rfl⟩, rfl, rfl⟩
  rw [if_neg hbad, if_neg hbad]
  by_cases hdisabled : (!captionEnabled env.mask e.channelOf) = true
  · rw [if_pos hdisabled, if_pos (hmask.mpr hdisabled)]
    exact h.passes
  rw [if_neg hdisabled, if_neg (mt hmask.mp hdisabled)]
  by_cases hstale : e.finish.toNat ≤ now.toNat
  · rw [if_pos hstale, if_pos hstale]
    exact ⟨⟨h.screens, by rw [h.stale]; bv_omega, h.bad, h.crowded⟩, (List.append_nil _).symm, (fun _ h => nomatch h),
      ⟨rfl, rfl, rfl, rfl, rfl, rfl⟩, rfl, rfl⟩
  rw [if_neg hstale, if_neg hstale]
  by_cases hclear : e.kind = 2#8
  · rw [if_pos (hkind.mp hclear), if_pos hclear]
    exact h.issueClear e.channelOf
  · rw [if_neg (mt hkind.mpr hclear), if_neg hclear]
    exact h.issueCaption env x e

end One

/-! ## Issue (R54, R57) -/

theorem Slot.due_eq_some_iff (now : Word) (x : Slot) (e : CueEntry) :
    x.due now = some e ↔ x.state ≠ .reading ∧ x.entry = some e ∧ e.start.toNat ≤ now.toNat := by
  unfold Slot.due
  split
  · next h => simp [h]
  · next h => simp [h, Option.filter_eq_some_iff]

/-- The issue from the window `w` takes the `n` slots at its head. -/
structure Sequencer.IssuesAs (env : SeqEnv) (now : Word) (base : Sequencer) (w : List Slot) (q : Sequencer) (r : Taken)
    (n : Nat) (q' : Sequencer) (outs : List SeqOut) : Prop where
  within : n ≤ w.length
  leaves : Taken.Leaves base ((w.take n).foldl (Taken.next env.mask env.epoch now) r) q'
  sent : ((w.take n).foldl (Taken.next env.mask env.epoch now) r).sent = r.sent ++ outs
  toBuilder : ∀ o ∈ outs, o.toBuilder = true
  keeps : q.KeepsList q'
  cursor : q'.cursor = q.cursor + n
  window : q'.window = w.drop n
  due : ∀ x ∈ w.take n, ∃ e, x.due now = some e
  stops : ∀ x, (w.drop n).head? = some x → q.cursor + n < q.listCount → x.due now = none

theorem Sequencer.issues {env : SeqEnv} {now : Word} {base : Sequencer} (w : List Slot) {q : Sequencer} {r : Taken}
    (h : Taken.Leaves base r q) : ∃ n,
      Sequencer.IssuesAs env now base w q r n (Sequencer.issue env now w q).1 (Sequencer.issue env now w q).2 := by
  have hstop (w : List Slot) (q : Sequencer) (r : Taken) (h : Taken.Leaves base r q)
      (hdue : ∀ x, w.head? = some x → q.cursor < q.listCount → x.due now = none) :
      Sequencer.IssuesAs env now base w q r 0 { q with window := w } [] :=
    ⟨Nat.zero_le _, ⟨h.screens, h.stale, h.bad, h.crowded⟩, (List.append_nil _).symm, (fun _ h => nomatch h),
      ⟨rfl, rfl, rfl, rfl, rfl, rfl⟩, rfl, rfl, (fun _ h => nomatch h), hdue⟩
  induction w generalizing q r with
  | nil => exact ⟨0, hstop [] q r h fun _ h => nomatch h⟩
  | cons x rest ih =>
    unfold Sequencer.issue
    split
    · next hnone =>
      refine ⟨0, hstop (x :: rest) q r h fun y hy hcursor => ?_⟩
      cases hy
      rwa [if_pos hcursor] at hnone
    · next e hsome =>
      have hdue : x.due now = some e := by
        split at hsome
        · exact hsome
        · exact nomatch hsome
      have hone := Taken.Leaves.issueSlot (base := base) (q := { q with cursor := q.cursor + 1 }) (r := r)
        ⟨h.screens, h.stale, h.bad, h.crowded⟩ env now ((Slot.due_eq_some_iff now x e).mp hdue).2.1
      obtain ⟨n, hrest⟩ := ih hone.leaves
      have hnext : q.KeepsList { q with cursor := q.cursor + 1 } := ⟨rfl, rfl, rfl, rfl, rfl, rfl⟩
      have hcursor := hone.cursor
      have hcount := hone.keeps.listCount
      dsimp only at hcursor hcount
      refine ⟨n + 1, Nat.succ_le_succ hrest.within, hrest.leaves, ?_, fun o ho => ?_,
        hnext.trans (hone.keeps.trans hrest.keeps), ?_, hrest.window, fun y hy => ?_,
        fun y hy hlt => hrest.stops y hy ?_⟩
      · exact hrest.sent.trans (by rw [hone.sent, List.append_assoc])
      · exact (List.mem_append.mp ho).elim (hone.toBuilder o) (hrest.toBuilder o)
      · exact hrest.cursor.trans (by rw [hcursor]; omega)
      · obtain rfl | hy := List.mem_cons.mp hy
        · exact ⟨e, hdue⟩
        · exact hrest.due y hy
      · rw [hcursor, hcount]; omega

/-- Every cue that a walk brings onto a screen ends after the show time. -/
theorem Taken.next_ends {mask : BitVec 4} {epoch : Byte} {now : Word} {r : Taken}
    (h : ∀ c, ∀ a ∈ r.screens c, now.toNat < a.finish.toNat) (x : Slot) :
    ∀ c, ∀ a ∈ (Taken.next mask epoch now r x).screens c, now.toNat < a.finish.toNat := by
  have hset {c : Channel} {l : List ActiveCue} (hl : ∀ a ∈ l, now.toNat < a.finish.toNat) :
      ∀ d, ∀ a ∈ Function.update r.screens c l d, now.toNat < a.finish.toNat := fun d a ha => by
    rw [Function.update_apply] at ha
    split at ha
    · exact hl a ha
    · exact h d a ha
  unfold Taken.next
  split
  · exact h
  simp only
  split
  · exact h
  split
  · exact h
  split
  · exact h
  split
  · exact h
  next hends =>
  split
  · exact hset fun _ h => nomatch h
  split
  · refine hset fun a ha => ?_
    obtain ha | ha := List.mem_append.mp ha
    · exact h _ a (List.mem_of_mem_drop ha)
    · rw [List.mem_singleton.mp ha]; exact Nat.lt_of_not_le hends
  · refine hset fun a ha => ?_
    obtain ha | ha := List.mem_append.mp ha
    · exact h _ a ha
    · rw [List.mem_singleton.mp ha]; exact Nat.lt_of_not_le hends

theorem Taken.foldl_ends {mask : BitVec 4} {epoch : Byte} {now : Word} (l : List Slot) {r : Taken}
    (h : ∀ c, ∀ a ∈ r.screens c, now.toNat < a.finish.toNat) :
    ∀ c, ∀ a ∈ (l.foldl (Taken.next mask epoch now) r).screens c, now.toNat < a.finish.toNat := by
  induction l generalizing r with
  | nil => exact h
  | cons x rest ih => exact ih (Taken.next_ends h x)

/-! ## The walk as a whole (R53 to R58) -/

/-- R53: what the expiry at show time `now` leaves. -/
def Taken.expired (q : Sequencer) (now : Word) : Taken :=
  { screens := fun c => q.active[c].filter fun a => now.toNat < a.finish.toNat
    sent := (q.expire now).2, stale := 0, bad := 0, crowded := 0 }

theorem Taken.leaves_expired (q : Sequencer) (now : Word) : Taken.Leaves q (Taken.expired q now) (q.expire now).1 where
  screens := fun c => by simp [Sequencer.expire, Taken.expired]
  stale := (BitVec.add_zero _).symm
  bad := (BitVec.add_zero _).symm
  crowded := (BitVec.add_zero _).symm

theorem Sequencer.expire_toBuilder (q : Sequencer) (now : Word) : ∀ o ∈ (q.expire now).2, o.toBuilder = true := by
  intro o ho
  obtain ⟨c, _, ho⟩ := List.mem_flatMap.mp ho
  obtain ⟨a, _, rfl⟩ := List.mem_map.mp ho
  rfl

theorem Sequencer.testEnd_eq (q : Sequencer) : q.testEnd
    = ({ q with listEnd := q.listEnd || decide (q.cursor = q.listCount) },
        if q.cursor = q.listCount ∧ q.listEnd = false then [.report (.listEnd q.cursor)] else []) := by
  unfold Sequencer.testEnd
  by_cases h : q.cursor = q.listCount ∧ q.listEnd = false
  · rw [if_pos h, if_pos ⟨h.1, by rw [h.2]; rfl⟩, decide_eq_true h.1, Bool.or_true]
  · have hsame : (q.listEnd || decide (q.cursor = q.listCount)) = q.listEnd := by
      cases hend : q.listEnd with
      | true => rfl
      | false => exact decide_eq_false fun g => h ⟨g, hend⟩
    rw [if_neg h, if_neg (by simpa using h), hsame]

/-- The walk of `q` at show time `now` takes `n` slots. -/
structure Sequencer.WalksAs (env : SeqEnv) (now : Word) (q : Sequencer) (n : Nat) (q' : Sequencer)
    (outs : List SeqOut) : Prop where
  within : n ≤ q.window.length
  state : q'.state = q.state
  listCount : q'.listCount = q.listCount
  seekGen : q'.seekGen = q.seekGen
  seek : q'.seek = q.seek
  truncated : q'.truncated = q.truncated
  cursor : q'.cursor = q.cursor + n
  listEnd : q'.listEnd = (q.listEnd || decide (q'.cursor = q.listCount))
  due : ∀ x ∈ q.window.take n, ∃ e, x.due now = some e
  stops : ∀ x, (q.window.drop n).head? = some x → q'.cursor < q.listCount → x.due now = none
  leaves : Taken.Leaves q ((q.window.take n).foldl (Taken.next env.mask env.epoch now) (Taken.expired q now)) q'
  window : q'.window = q.window.drop n
    ++ ((List.range (min (q'.cursor + 16) q.listCount)).drop (q'.cursor + (q.window.drop n).length)).map newSlot
  outs : ∃ sent, outs = sent
      ++ (if q'.cursor = q.listCount ∧ q.listEnd = false then [.report (.listEnd q'.cursor)] else [])
      ++ ((List.range (min (q'.cursor + 16) q.listCount)).drop (q'.cursor + (q.window.drop n).length)).map
          (.readEntry q.seekGen)
    ∧ sent = ((q.window.take n).foldl (Taken.next env.mask env.epoch now) (Taken.expired q now)).sent
    ∧ ∀ o ∈ sent, o.toBuilder = true

theorem Sequencer.walks (q : Sequencer) (env : SeqEnv) (now : Word) :
    ∃ n, Sequencer.WalksAs env now q n (q.walk env now).1 (q.walk env now).2 := by
  obtain ⟨n, h⟩ := Sequencer.issues (env := env) (now := now) (q.expire now).1.window (Taken.leaves_expired q now)
  refine ⟨n, ?_⟩
  have hlist : q.KeepsList (Sequencer.issue env now (q.expire now).1.window (q.expire now).1).1 :=
    (show q.KeepsList (q.expire now).1 from ⟨rfl, rfl, rfl, rfl, rfl, rfl⟩).trans h.keeps
  have hcursor : (Sequencer.issue env now (q.expire now).1.window (q.expire now).1).1.cursor = q.cursor + n := h.cursor
  have hwindow : (Sequencer.issue env now (q.expire now).1.window (q.expire now).1).1.window = q.window.drop n :=
    h.window
  unfold Sequencer.walk
  simp only [Sequencer.testEnd_eq, Sequencer.refill, Sequencer.missing]
  refine ⟨h.within, hlist.state, hlist.listCount, hlist.seekGen, hlist.seek, hlist.truncated, hcursor, ?_, h.due,
    fun x hx hlt => h.stops x hx (by rw [← h.cursor]; exact hlt), ⟨h.leaves.screens, h.leaves.stale, h.leaves.bad,
      h.leaves.crowded⟩, ?_, _, ?_, h.sent.symm, fun o ho => ?_⟩
  · rw [hlist.listEnd, hlist.listCount]
  · rw [hwindow, hlist.listCount]
  · rw [hwindow, hlist.listCount, hlist.listEnd, hlist.seekGen]
    rfl
  · exact (List.mem_append.mp ho).elim (q.expire_toBuilder now o) (h.toBuilder o)

end Sys2Proof.Machine
end

section
/-! SUPPORT. The show-time update of a boundary that keeps its clock (R40): what it leaves, asks and reports. -/

namespace Sys2Proof.Machine

theorem State.boundaryFollow_builder {s : State} {k : Aud} (h : (s.aud k).unit.showState ≠ .dark) (o : Bool) :
    ((s.boundaryFollow k o).aud k).builder
      = ((s.seqSendAll k ((s.aud k).updated (s.seqEnv k)).2).aud k).builder := by
  rw [State.boundaryFollow_aud h o, State.seqSendAll_builder, State.builderTakes_eq]
  rfl

theorem State.makes_showRecord (s : State) (k : Aud) (offset length : Nat) (data : List Byte) (purpose : Purpose) :
    ∃ made, State.Makes k s (s.access k .showRecord offset length data purpose).1 made ∧ cuesAsked made = [] := by
  obtain ⟨made, hmakes, hkinds⟩ := s.makes_access k .showRecord offset length data purpose
  refine ⟨made, hmakes, cuesAsked_of_others fun a ha hrole => ?_⟩
  obtain ⟨h, _⟩ | ⟨h, _⟩ := hkinds a ha <;> exact nomatch h.symm.trans hrole

theorem State.makes_boundarySnapshot (s : State) (k : Aud) :
    ∃ made, State.Makes k s (s.boundarySnapshot k) made ∧ cuesAsked made = [] := by
  unfold State.boundarySnapshot
  split
  · exact s.makes_showRecord k _ _ _ _
  · exact ⟨[], .refl k s, rfl⟩

theorem State.makes_update {s : State} {k : Aud} {x : Binding} (hx : s.binding k .cues = some x) {l : List SeqOut}
    (hl : ((s.aud k).updated (s.seqEnv k)).2 = l)
    (hin : ∀ y ∈ l.filterMap SeqOut.entry, 32 + 32 * y.1 + 31 ≤ x.limit.toNat) :
    ∃ made, State.Makes k s (s.showTimeUpdate k) made
      ∧ cuesAsked made = (l.filterMap SeqOut.entry).map entryReadAs := by
  obtain ⟨made, hmakes, hasked⟩ := State.makes_seqSendAll hx hin
  rw [State.showTimeUpdate_eq, hl]
  exact ⟨made, hmakes.then_modAud _, hasked⟩

/-- Through CUES the boundary of a lit auditorium asks for the entries its show-time update asks for. -/
theorem State.boundaryFollow_asks {s : State} {k : Aud} {x : Binding} (hlit : (s.aud k).unit.showState ≠ .dark)
    (hx : s.binding k .cues = some x) {l : List SeqOut} (hl : ((s.aud k).updated (s.seqEnv k)).2 = l)
    (hin : ∀ y ∈ l.filterMap SeqOut.entry, 32 + 32 * y.1 + 31 ≤ x.limit.toNat) (o : Bool) :
    ∃ made, State.Makes k s (s.boundaryFollow k o) made
      ∧ cuesAsked made = (l.filterMap SeqOut.entry).map entryReadAs := by
  obtain ⟨m, hm, hmasked⟩ := s.makes_showRecord k 0 64 [] .headRead
  have hhead : State.Makes k s (s.readHead k) m := hm
  have honly : State.OnlyAud k s (s.readHead k) := s.onlyAud_access k _ _ _ _ _
  have hread := s.readHead_aud k
  have hsame {t : State} (ht : State.OnlyAud k s t) (haud : t.aud k = { s.aud k with writer := (t.aud k).writer }) :
      ((t.aud k).updated (t.seqEnv k)).2 = l := by
    rw [ht.seqEnv (by rw [haud]), haud]
    exact hl
  rw [State.boundaryFollow_lit hlit]
  cases o with
  | false =>
    obtain ⟨u, hu, huasked⟩ := State.makes_update ((State.binding_congr hm.bindings k _).trans hx) (hsame honly hread) hin
    obtain ⟨p, hp, hpasked⟩ := ((s.readHead k).showTimeUpdate k).makes_boundarySnapshot k
    exact ⟨m ++ u ++ p, (hhead.trans hu).trans hp, by
      rw [cuesAsked_append, cuesAsked_append, hmasked, hpasked, huasked, List.append_nil, List.nil_append]⟩
  | true =>
    obtain ⟨p, hp, hpasked⟩ := (s.readHead k).makes_boundarySnapshot k
    have hshot := hhead.trans hp
    obtain ⟨u, hu, huasked⟩ := State.makes_update ((State.binding_congr hshot.bindings k _).trans hx)
      (hsame (honly.trans (State.onlyAud_boundarySnapshot _ k)) (by rw [State.boundarySnapshot_aud, hread])) hin
    exact ⟨m ++ p ++ u, hshot.trans hu, by
      rw [cuesAsked_append, cuesAsked_append, hmasked, hpasked, huasked, List.append_nil, List.nil_append]⟩

/-- The boundary of a lit auditorium whose clock neither is IDLE nor becomes lost. -/
structure State.KeptBoundary (s : State) (k : Aud) : Prop where
  running : s.partState = .running
  lit : (s.aud k).unit.showState ≠ .dark
  clock : (s.aud k).clock.state ≠ .idle
  kept : ¬(s.aud k).clock.Loses

/-- R40: what the show-time update of a boundary makes of the Sequencer. -/
def State.boundaryUpdate (s : State) (k : Aud) : Sequencer × List SeqOut :=
  (s.aud k).seq.update (s.seqEnv k) ((s.aud k).clock.boundary s.houseTime).clock.showTime

section Kept
variable {s : State} {k : Aud} (h : s.KeptBoundary k)
include h

theorem State.KeptBoundary.clocked_lit : ((s.clocked k).aud k).unit.showState ≠ .dark := by
  rw [State.clocked_aud]
  exact h.lit

theorem State.KeptBoundary.updated :
    ((s.clocked k).aud k).updated ((s.clocked k).seqEnv k) = s.boundaryUpdate k := by
  have henv : (s.clocked k).seqEnv k = s.seqEnv k := (s.onlyAud_clocked k).seqEnv (by rw [State.clocked_aud])
  have hclock : ((s.clocked k).aud k).clock = ((s.aud k).clock.boundary s.houseTime).clock := by
    rw [State.clocked_aud]
  have hseq : ((s.clocked k).aud k).seq = (s.aud k).seq := (s.clocked_seq k).trans (if_neg h.kept)
  unfold Auditorium.updated State.boundaryUpdate
  rw [henv, hclock, hseq, if_neg (mt ((s.aud k).clock.answers_boundary s.houseTime).idle.mp h.clock)]

theorem State.KeptBoundary.seq (o : Bool) : ((s.takeBoundary k o).aud k).seq = (s.boundaryUpdate k).1 := by
  rw [State.takeBoundary_running h.running, State.boundaryFollow_aud h.clocked_lit, h.updated]
  rfl

theorem State.KeptBoundary.builder (o : Bool) : ((s.takeBoundary k o).aud k).builder
    = (((s.reportAll k (s.aud k).clock.silenceReports).seqSendAll k (s.boundaryUpdate k).2).aud k).builder := by
  rw [State.takeBoundary_running h.running, State.boundaryFollow_builder h.clocked_lit, h.updated]
  refine State.seqSendAll_builder_congr ?_ ?_ ?_ _
  · rw [(s.onlyAud_clocked k).partState, (s.onlyAud_reportAll k _).partState]
  · rw [State.clocked_aud, State.reportAll_unit]
  · rw [State.clocked_builder, if_neg h.kept, State.reportAll_aud]

theorem State.KeptBoundary.writer (hin : ∀ x, s.binding k .showRecord = some x → 511 ≤ x.limit.toNat) (o : Bool) :
    ((s.takeBoundary k o).aud k).writer
      = (((s.reportAll k (s.aud k).clock.silenceReports).seqSendAll k (s.boundaryUpdate k).2).aud k).writer := by
  have hfollow := State.boundaryFollow_sameWriter h.clocked_lit
    (by rw [State.binding_congr (s.onlyAud_clocked k).bindings]; exact hin) o
  rw [h.updated] at hfollow
  rw [State.takeBoundary_running h.running]
  exact (hfollow.trans ((s.clocked_sameWriter k).seqSendAll _)).writer

theorem State.KeptBoundary.entriesRead {x : Binding} (hx : s.binding k .cues = some x) {purpose : Nat → Purpose}
    {indices : List Nat}
    (hasks : (s.boundaryUpdate k).2.filterMap SeqOut.entry = indices.map fun i => (i, purpose i))
    (hin : ∀ i ∈ indices, 32 + 32 * i + 31 ≤ x.limit.toNat) (o : Bool) :
    s.EntriesRead (s.takeBoundary k o) k purpose indices := by
  obtain ⟨reports, hclocked, hreports⟩ := s.makes_clocked k
  obtain ⟨made, hmakes, hasked⟩ := State.boundaryFollow_asks h.clocked_lit
    ((State.binding_congr hclocked.bindings k _).trans hx) (congrArg Prod.snd h.updated) (fun y hy => by
      rw [hasks] at hy
      obtain ⟨i, hi, rfl⟩ := List.mem_map.mp hy
      exact hin i hi) o
  rw [State.takeBoundary_running h.running]
  refine (hclocked.trans hmakes).entriesRead ?_
  rw [cuesAsked_append, cuesAsked_of_reports hreports, hasked, hasks, List.nil_append]

end Kept

theorem SeqOut.entry_toBuilder {o : SeqOut} (h : o.toBuilder = true) : o.entry = none := by
  cases o with
  | start => rfl
  | remove => rfl
  | clear => rfl
  | textReady => rfl
  | report => rfl
  | readEntry => exact nomatch h
  | readScan => exact nomatch h
  | readLookback => exact nomatch h
  | readText => rfl

theorem filterMap_entry_toBuilder {l : List SeqOut} (h : ∀ o ∈ l, o.toBuilder = true) :
    l.filterMap SeqOut.entry = [] :=
  List.filterMap_eq_nil_iff.mpr fun o ho => SeqOut.entry_toBuilder (h o ho)

/-- The boundary's premise on silence, as the statements write it: the clock is not lost by it. -/
theorem Clock.not_loses {c : Clock} (h : c.state ≠ .lost → c.silence < c.loop.holdover) : ¬c.Loses := by
  intro ⟨hcounts, hover⟩
  have := h fun hlost => by rw [hlost] at hcounts; exact nomatch hcounts
  omega

theorem Clock.silenceReports_kept {c : Clock} (h : ¬c.Loses) :
    c.silenceReports = if c.state = .locked ∧ 10 ≤ c.silence then [.clockFlywheel] else [] := by
  have hcoasts : c.Coasts ↔ c.state = .locked ∧ 10 ≤ c.silence := by
    rw [Clock.Coasts, and_iff_right h]
    exact and_congr_right' Nat.lt_succ_iff
  unfold Clock.silenceReports
  rw [if_neg h]
  simp only [hcoasts]

/-- Settles O17. -/
theorem walkExpiresIssuesAndRefills : Obligations.WalkExpiresIssuesAndRefills := by
  unfold Obligations.WalkExpiresIssuesAndRefills
  intro k o s hdue hrunning hshow hclock hsilence hwalking
  have hkept := Clock.not_loses hsilence
  have h : s.KeptBoundary k := ⟨hrunning, by rw [hshow]; exact (fun h => nomatch h), hclock, hkept⟩
  refine ⟨_, execFrameBoundary_due hdue o, s.onlyAud_takeBoundary k o, ?_⟩
  intro q q' now taken mask start r fresh ended flew u
  have hnow : now = ((s.aud k).clock.boundary s.houseTime).clock.showTime := by
    rw [← s.takeBoundary_clock k o]
  have hupdate : s.boundaryUpdate k = q.walk (s.seqEnv k) now := by
    rw [hnow]
    unfold State.boundaryUpdate Sequencer.update
    rw [hwalking]
  obtain ⟨n, hw⟩ := q.walks (s.seqEnv k) now
  rw [← hupdate] at hw
  have hq' : q' = (s.boundaryUpdate k).1 := h.seq o
  rw [← hq'] at hw
  have htaken : taken = n := by
    simp only [taken, hw.cursor]
    omega
  have hr : r = (q.window.take n).foldl (Taken.next (s.seqEnv k).mask (s.seqEnv k).epoch now) (Taken.expired q now) := by
    rw [← htaken]
    rfl
  have hfresh : (List.range (min (q'.cursor + 16) q.listCount)).drop (q'.cursor + (q.window.drop n).length) = fresh := by
    simp only [fresh, htaken]
  obtain ⟨sent, houts, hsent, htoBuilder⟩ := hw.outs
  have hu : u = (s.reportAll k (s.aud k).clock.silenceReports).seqSendAll k (s.boundaryUpdate k).2 := by
    have hreports : (s.aud k).clock.silenceReports = if flew then [.clockFlywheel] else [] :=
      Clock.silenceReports_kept hkept
    rw [houts, hreports, hsent, hfresh, ← hr]
  refine ⟨hw.state.trans hwalking, hw.listCount, hw.seekGen, hw.seek, ?_, ?_, fun hpaused => ?_, fun c a ha => ?_,
    fun x hx => ?_, fun x hx hlt hread e he => ?_, fun c => ?_, ?_, ?_, ?_, hw.truncated, ?_, fun hin => ?_, ?_,
    fun x hx hin => ?_, hw.listEnd⟩
  · rw [hw.cursor]; exact Nat.le_add_right _ _
  · rw [hw.cursor]; exact Nat.add_le_add_left hw.within _
  · rw [hnow, ((s.aud k).clock.boundary_movedTo s.houseTime).showTime,
      Clock.moveTime_stands (by rw [hpaused]; exact Bool.false_ne_true)]
  · rw [hw.leaves.screens c] at ha
    refine Taken.foldl_ends _ (fun d b hb => ?_) c a ha
    exact of_decide_eq_true (List.mem_filter.mp hb).2
  · rw [htaken] at hx
    obtain ⟨e, he⟩ := hw.due x hx
    obtain ⟨hread, hentry, hstart⟩ := (Slot.due_eq_some_iff now x e).mp he
    exact ⟨hread, e, hentry, hstart⟩
  · rw [htaken] at hx
    by_contra hstart
    have hnone := hw.stops x hx hlt
    rw [(Slot.due_eq_some_iff now x e).mpr ⟨hread, he, Nat.le_of_not_lt hstart⟩] at hnone
    exact nomatch hnone
  · rw [hr]; exact hw.leaves.screens c
  · rw [hr]; exact hw.leaves.stale
  · rw [hr]; exact hw.leaves.bad
  · rw [hr]; exact hw.leaves.crowded
  · rw [hu]; exact h.builder o
  · rw [hu]; exact h.writer hin o
  · rw [htaken, ← hfresh]; exact hw.window
  · refine h.entriesRead hx ?_ (fun i hi => ?_) o
    · rw [houts, List.filterMap_append, List.filterMap_append, filterMap_entry_toBuilder htoBuilder, hfresh]
      have hend : (if q'.cursor = q.listCount ∧ q.listEnd = false then [SeqOut.report (.listEnd q'.cursor)]
          else []).filterMap SeqOut.entry = [] := by split <;> rfl
      rw [hend, List.nil_append, List.nil_append, List.filterMap_map]
      exact congrFun (List.filterMap_eq_map (f := fun i => (i, Purpose.entryRead q.seekGen i))) fresh
    · have := List.mem_range.mp (List.mem_of_mem_drop hi)
      omega

end Sys2Proof.Machine
end

section
/-! SUPPORT. The seek at a show-time update (R65 to R71). -/

namespace Sys2Proof.Machine

/-! ## Messages that are reports and reads -/

/-- The report a message carries. -/
def SeqOut.reported : SeqOut → Option Report
  | .report r => some r
  | .start _ _ _ _ => none
  | .remove _ _ _ => none
  | .clear _ => none
  | .textReady _ => none
  | .readEntry _ _ => none
  | .readScan _ _ => none
  | .readLookback _ _ => none
  | .readText _ _ _ _ => none

/-- The message asks for a text. -/
def SeqOut.asksText : SeqOut → Bool
  | .readText _ _ _ _ => true
  | .report _ => false
  | .start _ _ _ _ => false
  | .remove _ _ _ => false
  | .clear _ => false
  | .textReady _ => false
  | .readEntry _ _ => false
  | .readScan _ _ => false
  | .readLookback _ _ => false

theorem State.readEntry_sameWriter {s : State} {k : Aud} {x : Binding} (hx : s.binding k .cues = some x) {i : Nat}
    (hi : 32 + 32 * i + 31 ≤ x.limit.toNat) (purpose : Purpose) :
    State.SameWriter k (s.access k .cues (entryOffset i) 32 [] purpose).1 s :=
  State.access_sameWriter (fun y hy => by rw [hx] at hy; cases hy; unfold entryOffset; omega) _ _

/-- Entries that lie within the list are read without a report: the Report Writer hears the reports sent alone. -/
theorem State.seqSend_sameWriter {s : State} {k : Aud} {x : Binding} (hx : s.binding k .cues = some x) {o : SeqOut}
    (hin : ∀ y, o.entry = some y → 32 + 32 * y.1 + 31 ≤ x.limit.toNat) (htext : o.asksText = false) :
    State.SameWriter k (s.seqSend k o) (s.reportAll k o.reported.toList) := by
  cases o with
  | start => exact s.askBuilder_writer k _
  | remove => exact s.askBuilder_writer k _
  | clear => exact s.askBuilder_writer k _
  | textReady => exact s.askBuilder_writer k _
  | report r => exact .refl k _
  | readEntry gen i => exact State.readEntry_sameWriter hx (hin (i, _) rfl) _
  | readScan gen i => exact State.readEntry_sameWriter hx (hin (i, _) rfl) _
  | readLookback gen i => exact State.readEntry_sameWriter hx (hin (i, _) rfl) _
  | readText => exact nomatch htext

theorem State.reportAll_append (s : State) (k : Aud) (l m : List Report) :
    s.reportAll k (l ++ m) = (s.reportAll k l).reportAll k m := List.foldl_append

theorem State.seqSendAll_sameWriter {s : State} {k : Aud} {x : Binding} (hx : s.binding k .cues = some x)
    {l : List SeqOut} (hin : ∀ y ∈ l.filterMap SeqOut.entry, 32 + 32 * y.1 + 31 ≤ x.limit.toNat)
    (htext : ∀ o ∈ l, o.asksText = false) :
    State.SameWriter k (s.seqSendAll k l) (s.reportAll k (l.filterMap SeqOut.reported)) := by
  induction l generalizing s with
  | nil => exact .refl k s
  | cons o rest ih =>
    have hone := State.seqSend_sameWriter hx (o := o)
      (fun y hy => hin y (List.mem_filterMap.mpr ⟨o, List.mem_cons_self, hy⟩)) (htext o List.mem_cons_self)
    have hrest := ih ((State.binding_congr (s.onlyAud_seqSend k o).bindings k _).trans hx)
      (fun y hy => hin y (by
        obtain ⟨p, hp, h⟩ := List.mem_filterMap.mp hy
        exact List.mem_filterMap.mpr ⟨p, List.mem_cons_of_mem _ hp, h⟩))
      (fun p hp => htext p (List.mem_cons_of_mem _ hp))
    have hsplit : (o :: rest).filterMap SeqOut.reported = o.reported.toList ++ rest.filterMap SeqOut.reported := by
      cases ho : o.reported <;> simp [ho]
    rw [hsplit, State.reportAll_append]
    exact hrest.trans (hone.reportAll _)

theorem Builder.heed_silent (n : Nat) (b : Builder) {o : SeqOut} (h : o.toBuilder = false) : b.heed n o = b := by
  cases o with
  | start => exact nomatch h
  | remove => exact nomatch h
  | clear => exact nomatch h
  | textReady => exact nomatch h
  | report => rfl
  | readEntry => rfl
  | readScan => rfl
  | readLookback => rfl
  | readText => rfl

theorem Builder.heedAll_silent (n : Nat) (b : Builder) {l : List SeqOut} (h : ∀ o ∈ l, o.toBuilder = false) :
    b.heedAll n l = b := by
  induction l generalizing b with
  | nil => rfl
  | cons o rest ih =>
    refine (ih (b.heed n o) fun p hp => h p (List.mem_cons_of_mem _ hp)).trans ?_
    exact b.heed_silent n (h o List.mem_cons_self)

theorem State.seqSendAll_builder_silent (s : State) (k : Aud) {l : List SeqOut} (h : ∀ o ∈ l, o.toBuilder = false) :
    ((s.seqSendAll k l).aud k).builder = (s.aud k).builder := by
  rw [State.seqSendAll_builder, Builder.heedAll_silent _ _ h]
  split <;> rfl

/-! ## The scan's part of an update (R65 to R68) -/

/-- R67: the direction the scan takes next: FORWARD where there is nothing below the cursor to probe. -/
def Seek.heading (sk : Seek) (q : Sequencer) : Direction :=
  if sk.direction = .undecided ∧ q.cursor = 0 then .forward else sk.direction

/-- R65: a scan without a batch is at the end of the list. -/
def Seek.AtEnd (sk : Seek) (q : Sequencer) : Prop :=
  sk.heading q = .forward ∧ q.cursor = q.listCount ∨ sk.heading q = .backward ∧ q.cursor = 0

/-- R66, R68: the indices a scan without a batch asks for next, in scan order. -/
def Seek.nextRun (sk : Seek) (q : Sequencer) : List Nat :=
  match sk.heading q with
  | .forward => q.forwardRun 256
  | .backward => q.backwardRun 256
  | .undecided => [q.cursor - 1]

section Scan
variable {q : Sequencer} {sk : Seek}

theorem Sequencer.scanUpdate_busy (h : sk.batch ≠ []) : q.scanUpdate sk = (q, []) := by
  unfold Sequencer.scanUpdate
  exact if_neg fun g => h (List.isEmpty_iff.mp g)

theorem Sequencer.scanUpdate_ends (hbatch : sk.batch = []) (h : sk.AtEnd q) :
    q.scanUpdate sk = q.endScan { sk with direction := sk.heading q } := by
  unfold Sequencer.scanUpdate
  rw [if_pos (by rw [hbatch]; rfl)]
  unfold Seek.AtEnd Seek.heading at h
  unfold Seek.heading
  cases hd : sk.direction with
  | forward =>
    simp only [hd, reduceCtorEq, false_and, if_false, true_and, or_false] at h ⊢
    exact if_pos h
  | backward =>
    simp only [hd, reduceCtorEq, false_and, if_false, true_and, false_or] at h ⊢
    exact if_pos h
  | undecided =>
    by_cases hcursor : q.cursor = 0
    · simp only [hd, hcursor, and_self, if_true, true_and, reduceCtorEq, false_and, or_false] at h ⊢
      exact if_pos (hcursor.trans h)
    · simp [hd, hcursor] at h

theorem Sequencer.scanUpdate_issues (hbatch : sk.batch = []) (h : ¬sk.AtEnd q) :
    q.scanUpdate sk = q.issueScan { sk with direction := sk.heading q } (sk.nextRun q) := by
  unfold Sequencer.scanUpdate
  rw [if_pos (by rw [hbatch]; rfl)]
  unfold Seek.AtEnd Seek.heading at h
  unfold Seek.nextRun Seek.heading
  cases hd : sk.direction with
  | forward =>
    simp only [hd, reduceCtorEq, false_and, if_false, true_and, or_false] at h ⊢
    exact if_neg h
  | backward =>
    simp only [hd, reduceCtorEq, false_and, if_false, true_and, false_or] at h ⊢
    exact if_neg h
  | undecided =>
    by_cases hcursor : q.cursor = 0
    · simp only [hd, hcursor, and_self, if_true, true_and, reduceCtorEq, false_and, or_false] at h ⊢
      exact if_neg fun g => h (hcursor.symm.trans g)
    · simp only [hcursor, and_false, if_false]
      rw [← hd]

theorem Sequencer.reentryUpdate_looking (env : SeqEnv) {items : List SeekItem} (h : sk.lookback = some items) :
    q.reentryUpdate env sk = (q, []) := by
  unfold Sequencer.reentryUpdate
  rw [h]

theorem Sequencer.backwardRun_isEmpty (n : Nat) : (q.backwardRun (n + 1)).isEmpty = true ↔ q.cursor = 0 := by
  unfold Sequencer.backwardRun
  rw [List.isEmpty_reverse, List.isEmpty_iff, List.drop_eq_nil_iff, List.length_range]
  omega

theorem Sequencer.reentryUpdate_looks (env : SeqEnv) (h : sk.lookback = none) (hcursor : 0 < q.cursor) :
    q.reentryUpdate env sk
      = ({ q with seek := some { sk with lookback := some ((q.backwardRun 64).map seekItem) } },
          (q.backwardRun 64).map fun i => SeqOut.readLookback q.seekGen i) := by
  unfold Sequencer.reentryUpdate
  rw [h]
  exact if_neg fun g => Nat.ne_of_gt hcursor ((Sequencer.backwardRun_isEmpty 63).mp g)

theorem Sequencer.reentryUpdate_completes (env : SeqEnv) (h : sk.lookback = none) (hcursor : q.cursor = 0) :
    q.reentryUpdate env sk = q.completeReentry env sk := by
  unfold Sequencer.reentryUpdate
  rw [h]
  exact if_pos ((Sequencer.backwardRun_isEmpty 63).mpr hcursor)

/-- R71: re-entry that completes without a candidate. -/
theorem Sequencer.completeReentry_empty (env : SeqEnv) (h : sk.candidates = []) : q.completeReentry env sk
    = ({ q with
          seek := none, state := .walking
          window := q.window ++ q.missing.map newSlot },
        [.report (.seekDone q.cursor 0)] ++ q.missing.map fun i => SeqOut.readEntry q.seekGen i) := by
  have htruncated : q.truncated + BitVec.ofNat 32 0 = q.truncated := BitVec.add_zero _
  unfold Sequencer.completeReentry
  rw [h]
  simp only [List.foldr_nil, List.countP_nil, htruncated]
  rfl

/-! ## The seek's step (R68, R69) -/

variable (hseek : q.seek = some sk) (env : SeqEnv)
include hseek

theorem Sequencer.seekUpdate_scanning (h : sk.phase = .scan) (hbatch : sk.batch ≠ []) :
    q.seekUpdate env = (q, []) := by
  unfold Sequencer.seekUpdate
  rw [hseek]
  simp only [h, if_true, Sequencer.scanUpdate_busy hbatch, hseek, reduceCtorEq, if_false]

theorem Sequencer.seekUpdate_reentry (h : sk.phase = .reentry) : q.seekUpdate env = q.reentryUpdate env sk := by
  unfold Sequencer.seekUpdate
  rw [hseek]
  simp only [h, if_true, hseek, reduceCtorEq, if_false, List.nil_append]

theorem Sequencer.seekUpdate_issues (h : sk.phase = .scan) (hbatch : sk.batch = []) (hends : ¬sk.AtEnd q) :
    q.seekUpdate env = q.issueScan { sk with direction := sk.heading q } (sk.nextRun q) := by
  unfold Sequencer.seekUpdate
  rw [hseek]
  simp only [h, if_true, Sequencer.scanUpdate_issues hbatch hends, Sequencer.issueScan, reduceCtorEq, if_false]

theorem Sequencer.seekUpdate_ends (h : sk.phase = .scan) (hbatch : sk.batch = []) (hends : sk.AtEnd q) :
    q.seekUpdate env = Sequencer.reentryUpdate
      { q with seek := some { sk with phase := .reentry, direction := sk.heading q, batch := [] } } env
      { sk with phase := .reentry, direction := sk.heading q, batch := [] } := by
  unfold Sequencer.seekUpdate
  rw [hseek]
  simp only [h, if_true, Sequencer.scanUpdate_ends hbatch hends, Sequencer.endScan, List.nil_append]

/-- R69: the lookback's turn comes at the update. -/
def Seek.Looks (sk : Seek) (q : Sequencer) : Prop :=
  ((sk.phase = .scan ∧ sk.batch = [] ∧ sk.AtEnd q) ∨ sk.phase = .reentry) ∧ sk.lookback = none

/-- What an update of a seek sends: reads of entries of the list, and the report `r` where there is one. -/
structure Sequencer.SendsReads (q : Sequencer) (outs : List SeqOut) (r : List Report) : Prop where
  reported : outs.filterMap SeqOut.reported = r
  silent : ∀ o ∈ outs, o.toBuilder = false
  textless : ∀ o ∈ outs, o.asksText = false
  within : q.cursor ≤ q.listCount → ∀ y ∈ outs.filterMap SeqOut.entry, y.1 < q.listCount

omit hseek in
theorem Sequencer.sendsReads_nil : q.SendsReads [] [] :=
  ⟨rfl, fun _ h => (nomatch h), fun _ h => (nomatch h), fun _ _ h => (nomatch h)⟩

omit hseek in
/-- The reads `read i` of the entries `run`. -/
theorem Sequencer.sendsReads_run {run : List Nat} {read : Nat → SeqOut} {purpose : Nat → Purpose}
    (hread : ∀ i, (read i).entry = some (i, purpose i) ∧ (read i).reported = none ∧ (read i).toBuilder = false
      ∧ (read i).asksText = false)
    (hrun : q.cursor ≤ q.listCount → ∀ i ∈ run, i < q.listCount) : q.SendsReads (run.map read) [] where
  reported := by
    rw [List.filterMap_map]
    exact List.filterMap_eq_nil_iff.mpr fun i _ => (hread i).2.1
  silent := fun o ho => by obtain ⟨i, _, rfl⟩ := List.mem_map.mp ho; exact (hread i).2.2.1
  textless := fun o ho => by obtain ⟨i, _, rfl⟩ := List.mem_map.mp ho; exact (hread i).2.2.2
  within := fun hcursor y hy => by
    obtain ⟨o, ho, hentry⟩ := List.mem_filterMap.mp hy
    obtain ⟨i, hi, rfl⟩ := List.mem_map.mp ho
    rw [(hread i).1] at hentry
    cases hentry
    exact hrun hcursor i hi

omit hseek in
theorem Sequencer.forwardRun_lt (n : Nat) : ∀ i ∈ q.forwardRun n, i < q.listCount := fun i hi => by
  have := List.mem_range.mp (List.mem_of_mem_drop hi)
  omega

omit hseek in
theorem Sequencer.backwardRun_lt (n : Nat) : ∀ i ∈ q.backwardRun n, i < q.cursor := fun _ hi =>
  List.mem_range.mp (List.mem_of_mem_drop (List.mem_reverse.mp hi))

omit hseek in
theorem Seek.nextRun_lt (hcursor : q.cursor ≤ q.listCount) :
    ∀ i ∈ sk.nextRun q, i < q.listCount := by
  intro i hi
  unfold Seek.nextRun at hi
  cases hd : sk.heading q with
  | forward => rw [hd] at hi; exact Sequencer.forwardRun_lt 256 i hi
  | backward => rw [hd] at hi; exact Nat.lt_of_lt_of_le (Sequencer.backwardRun_lt 256 i hi) hcursor
  | undecided =>
    rw [hd] at hi
    have hne : q.cursor ≠ 0 := fun h => by
      unfold Seek.heading at hd
      split at hd
      · exact nomatch hd
      · next hn => exact hn ⟨hd, h⟩
    have := List.mem_singleton.mp hi
    omega

omit hseek in
/-- The lookback's part of an update: it waits, issues its reads, or completes. -/
theorem Sequencer.reentryUpdate_sends (hcandidates : sk.lookback = none → sk.candidates = []) :
    q.SendsReads (q.reentryUpdate env sk).2
      (if sk.lookback = none ∧ q.cursor = 0 then [.seekDone 0 0] else []) := by
  cases hlook : sk.lookback with
  | some items =>
    rw [Sequencer.reentryUpdate_looking env hlook, if_neg fun h => nomatch h.1]
    exact Sequencer.sendsReads_nil
  | none =>
    by_cases hcursor : q.cursor = 0
    · rw [Sequencer.reentryUpdate_completes env hlook hcursor, Sequencer.completeReentry_empty env (hcandidates hlook),
        if_pos ⟨rfl, hcursor⟩]
      have hreads : q.SendsReads (q.missing.map fun i => SeqOut.readEntry q.seekGen i) [] :=
        Sequencer.sendsReads_run (purpose := fun i => .entryRead q.seekGen i) (fun _ => ⟨rfl, rfl, rfl, rfl⟩)
          fun _ i hi => by
            have := List.mem_range.mp (List.mem_of_mem_drop hi)
            omega
      refine ⟨?_, fun o ho => ?_, fun o ho => ?_, hreads.within⟩
      · rw [hcursor]
        exact congrArg (Report.seekDone 0 0 :: ·) hreads.reported
      · obtain rfl | ho := List.mem_cons.mp ho
        · rfl
        · exact hreads.silent o ho
      · obtain rfl | ho := List.mem_cons.mp ho
        · rfl
        · exact hreads.textless o ho
    · rw [Sequencer.reentryUpdate_looks env hlook (Nat.pos_of_ne_zero hcursor), if_neg fun h => hcursor h.2]
      exact Sequencer.sendsReads_run (purpose := fun i => .lookbackRead q.seekGen i) (fun _ => ⟨rfl, rfl, rfl, rfl⟩)
        fun hlt i hi => Nat.lt_of_lt_of_le (Sequencer.backwardRun_lt 64 i hi) hlt

/-- What the seek sends at an update: reads, and SEEK_DONE where it completes without a candidate. -/
theorem Sequencer.seekUpdate_sends (hcandidates : sk.lookback = none → sk.candidates = []) :
    (sk.Looks q ∧ q.cursor = 0 → q.SendsReads (q.seekUpdate env).2 [.seekDone 0 0])
      ∧ (¬(sk.Looks q ∧ q.cursor = 0) → q.SendsReads (q.seekUpdate env).2 []) := by
  have hreentry (hlooks : (sk.phase = .scan ∧ sk.batch = [] ∧ sk.AtEnd q) ∨ sk.phase = .reentry)
      (h : q.SendsReads (q.seekUpdate env).2 (if sk.lookback = none ∧ q.cursor = 0 then [.seekDone 0 0] else [])) :
      (sk.Looks q ∧ q.cursor = 0 → q.SendsReads (q.seekUpdate env).2 [.seekDone 0 0])
        ∧ (¬(sk.Looks q ∧ q.cursor = 0) → q.SendsReads (q.seekUpdate env).2 []) := by
    refine ⟨fun hdone => ?_, fun hnot => ?_⟩
    · rwa [if_pos ⟨hdone.1.2, hdone.2⟩] at h
    · rwa [if_neg fun g => hnot ⟨⟨hlooks, g.1⟩, g.2⟩] at h
  have hscan (hnot : ¬sk.Looks q) (h : q.SendsReads (q.seekUpdate env).2 []) :
      (sk.Looks q ∧ q.cursor = 0 → q.SendsReads (q.seekUpdate env).2 [.seekDone 0 0])
        ∧ (¬(sk.Looks q ∧ q.cursor = 0) → q.SendsReads (q.seekUpdate env).2 []) :=
    ⟨fun hdone => absurd hdone.1 hnot, fun _ => h⟩
  cases hphase : sk.phase with
  | reentry =>
    refine hreentry (.inr hphase) ?_
    rw [Sequencer.seekUpdate_reentry hseek env hphase]
    exact Sequencer.reentryUpdate_sends env hcandidates
  | scan =>
    by_cases hbatch : sk.batch = []
    · by_cases hends : sk.AtEnd q
      · refine hreentry (.inl ⟨hphase, hbatch, hends⟩) ?_
        rw [Sequencer.seekUpdate_ends hseek env hphase hbatch hends]
        have hsends := Sequencer.reentryUpdate_sends
          (q := { q with seek := some { sk with phase := .reentry, direction := sk.heading q, batch := [] } })
          (sk := { sk with phase := .reentry, direction := sk.heading q, batch := [] }) env hcandidates
        exact ⟨hsends.reported, hsends.silent, hsends.textless, hsends.within⟩
      · refine hscan (fun h => h.1.elim (fun g => hends g.2.2) fun g => nomatch hphase.symm.trans g) ?_
        rw [Sequencer.seekUpdate_issues hseek env hphase hbatch hends]
        exact Sequencer.sendsReads_run (purpose := fun i => .scanRead q.seekGen i) (fun _ => ⟨rfl, rfl, rfl, rfl⟩)
          Seek.nextRun_lt
    · refine hscan (fun h => h.1.elim (fun g => hbatch g.2.1) fun g => nomatch hphase.symm.trans g) ?_
      rw [Sequencer.seekUpdate_scanning hseek env hphase hbatch]
      exact Sequencer.sendsReads_nil

end Scan

end Sys2Proof.Machine
end

section
/-! SUPPORT. Reads of a Sequencer that end while the part is RUNNING (R44 to R48, R65 to R71). -/

namespace Sys2Proof.Machine

section Reads
variable {s : State} {k : Aud} {tag gen index : Nat} {a : Access} {cue : CueId}
  (hrunning : s.partState = .running) (h : s.InFlightAs tag a) (haud : a.aud = some k)

include hrunning h

/-- A current read of a Sequencer reaches it. -/
theorem State.InFlightAs.readReaches {sort : Purpose → Bool} (hsort : sort a.purpose = true) (d : List Byte)
    {f : SeqEnv → Sequencer → Sequencer × List SeqOut}
    (hdone : (s.dropAccess tag).readDone a (a.received d) = (s.dropAccess tag).seqStep k f) :
    s.endRead tag sort (.ok d) = (s.dropAccess tag).seqStep k f := by
  rw [h.endRead_ok hsort, State.endAccess_running (s := s.dropAccess tag) hrunning, hdone]

include haud

theorem State.InFlightAs.entryRead_ok (hp : a.purpose = .entryRead gen index) (hcurrent : s.isCurrent a = true)
    (hgen : gen = (s.aud k).seq.seekGen) (d : List Byte) : exec (.entryReadComplete tag (.ok d)) s
      = .next ((s.dropAccess tag).seqStep k fun env q => q.entryDone env index (parseEntry (a.received d))) := by
  refine congrArg Host.Outcome.next (h.readReaches hrunning (by rw [hp]; rfl) d ?_)
  unfold State.readDone
  rw [haud]
  simp only [hp]
  exact (if_pos hcurrent).trans (if_pos hgen)

theorem State.InFlightAs.textRead_ok (hp : a.purpose = .textRead gen cue) (hcurrent : s.isCurrent a = true)
    (hgen : gen = (s.aud k).seq.seekGen) (d : List Byte) : exec (.textReadComplete tag (.ok d)) s
      = .next ((s.dropAccess tag).seqStep k fun env q => q.textDone env cue (a.received d)) := by
  refine congrArg Host.Outcome.next (h.readReaches hrunning (by rw [hp]; rfl) d ?_)
  unfold State.readDone
  rw [haud]
  simp only [hp]
  exact (if_pos hcurrent).trans (if_pos hgen)

theorem State.InFlightAs.scanRead_ok (hp : a.purpose = .scanRead gen index) (hcurrent : s.isCurrent a = true)
    (hgen : gen = (s.aud k).seq.seekGen) (d : List Byte) : exec (.scanReadComplete tag (.ok d)) s
      = .next ((s.dropAccess tag).seqStep k fun _ q => q.scanDone index (parseEntry (a.received d))) := by
  refine congrArg Host.Outcome.next (h.readReaches hrunning (by rw [hp]; rfl) d ?_)
  unfold State.readDone
  rw [haud]
  simp only [hp]
  exact (if_pos hcurrent).trans (if_pos hgen)

theorem State.InFlightAs.lookbackRead_ok (hp : a.purpose = .lookbackRead gen index) (hcurrent : s.isCurrent a = true)
    (hgen : gen = (s.aud k).seq.seekGen) (d : List Byte) : exec (.lookbackReadComplete tag (.ok d)) s
      = .next ((s.dropAccess tag).seqStep k fun env q => q.lookbackDone env index (parseEntry (a.received d))) := by
  refine congrArg Host.Outcome.next (h.readReaches hrunning (by rw [hp]; rfl) d ?_)
  unfold State.readDone
  rw [haud]
  simp only [hp]
  exact (if_pos hcurrent).trans (if_pos hgen)

end Reads

/-! ## The probe (R66) -/

/-- R66: the probe leaves the cursor, the phase, the direction and the batch of reads `run`. -/
theorem Sequencer.examineProbe_spec (q : Sequencer) {sk : Seek} (e : CueEntry) (hphase : sk.phase = .scan) :
    ∃ cursor phase direction run, q.examineProbe sk e
        = ({ q with
              cursor := cursor
              seek := some { sk with phase := phase, direction := direction, batch := run.map seekItem } },
            run.map fun i => SeqOut.readScan q.seekGen i)
      ∧ (sk.target.toNat < e.start.toNat → direction = .backward ∧ cursor = q.cursor - 1
        ∧ (q.cursor - 1 = 0 → phase = .reentry)
        ∧ (q.cursor - 1 ≠ 0 → phase = .scan ∧ run = ((List.range (q.cursor - 1)).drop (q.cursor - 1 - 255)).reverse))
      ∧ (e.start.toNat ≤ sk.target.toNat → direction = .forward ∧ cursor = q.cursor
        ∧ (q.cursor = q.listCount → phase = .reentry)
        ∧ (q.cursor ≠ q.listCount →
            phase = .scan ∧ run = (List.range (min (q.cursor + 255) q.listCount)).drop q.cursor))
      ∧ (phase = .reentry → run = [])
      ∧ (q.cursor ≤ q.listCount → ∀ i ∈ run, i < q.listCount) := by
  unfold Sequencer.examineProbe
  by_cases hafter : sk.target.toNat < e.start.toNat
  · rw [if_pos hafter]
    unfold Sequencer.nextBackward
    by_cases hcursor : q.cursor - 1 = 0
    · exact ⟨q.cursor - 1, .reentry, .backward, [], if_pos hcursor, fun _ => ⟨rfl, rfl, fun _ => rfl,
        fun h => absurd hcursor h⟩, fun h => absurd hafter (Nat.not_lt.mpr h), fun _ => rfl, fun _ _ h => nomatch h⟩
    · refine ⟨q.cursor - 1, .scan, .backward, _, (if_neg hcursor).trans (by rw [← hphase]; rfl), fun _ => ⟨rfl, rfl,
        fun h => absurd h hcursor, fun _ => ⟨rfl, rfl⟩⟩, fun h => absurd hafter (Nat.not_lt.mpr h), (fun h => nomatch h),
        fun hle i hi => ?_⟩
      have := Sequencer.backwardRun_lt (q := { q with cursor := q.cursor - 1 }) 255 i hi
      dsimp only at this
      omega
  · rw [if_neg hafter]
    unfold Sequencer.nextForward
    by_cases hcursor : q.cursor = q.listCount
    · exact ⟨q.cursor, .reentry, .forward, [], if_pos hcursor, fun h => absurd h hafter, fun _ => ⟨rfl, rfl, fun _ => rfl,
        fun h => absurd hcursor h⟩, fun _ => rfl, fun _ _ h => nomatch h⟩
    · exact ⟨q.cursor, .scan, .forward, _, (if_neg hcursor).trans (by rw [← hphase]; rfl), fun h => absurd h hafter,
        fun _ => ⟨rfl, rfl, fun h => absurd h hcursor, fun _ => ⟨rfl, rfl⟩⟩, (fun h => nomatch h),
        fun _ => Sequencer.forwardRun_lt 255⟩

/-! ## The examination (R65, R67) -/

/-- How many held entries from the front of the batch move the cursor. -/
def movedBy (goesOn : CueEntry → Bool) (batch : List SeekItem) : Nat :=
  (batch.takeWhile fun x => x.entry.any goesOn).length

/-- R65: the seek after its examination: the scan ends, or goes on with what is left of the batch. -/
def Seek.examined (sk : Seek) (batch : List SeekItem) (moved : Nat) (ended : Prop) [Decidable ended] : Seek :=
  if ended then { sk with phase := .reentry, batch := [] } else { sk with batch := batch.drop moved }

/-- R65: the entries held from the front of the batch. -/
def heldRun (batch : List SeekItem) : Nat := (batch.takeWhile fun x => x.entry.isSome).length

theorem Direction.forward_or_backward {x : Direction} (h : x ≠ .undecided) : x = .forward ∨ x = .backward := by
  cases x with
  | undecided => exact absurd rfl h
  | forward => exact .inl rfl
  | backward => exact .inr rfl

theorem Sequencer.examineScan_forward {q : Sequencer} {sk : Seek} (h : sk.direction = .forward) :
    q.examineScan sk = Sequencer.examineForward sk sk.batch q := by
  unfold Sequencer.examineScan
  rw [h]

theorem Sequencer.examineScan_backward {q : Sequencer} {sk : Seek} (h : sk.direction = .backward) :
    q.examineScan sk = Sequencer.examineBackward sk sk.batch q := by
  unfold Sequencer.examineScan
  rw [h]

section Examine
variable {goesOn : CueEntry → Bool} {x : SeekItem} {rest : List SeekItem} {e : CueEntry}

theorem movedBy_awaiting (h : x.entry = none) : movedBy goesOn (x :: rest) = 0 ∧ heldRun (x :: rest) = 0 := by
  simp [movedBy, heldRun, h]

theorem movedBy_goesOn (h : x.entry = some e) (hgoes : goesOn e = true) :
    movedBy goesOn (x :: rest) = movedBy goesOn rest + 1 ∧ heldRun (x :: rest) = heldRun rest + 1 := by
  simp [movedBy, heldRun, h, hgoes]

theorem movedBy_stops (h : x.entry = some e) (hgoes : ¬goesOn e = true) :
    movedBy goesOn (x :: rest) = 0 ∧ heldRun (x :: rest) = heldRun rest + 1 := by
  simp [movedBy, heldRun, h, hgoes]

end Examine

theorem Sequencer.examineForward_eq (sk : Seek) (batch : List SeekItem) {q : Sequencer}
    (hcursor : q.cursor ≠ q.listCount) (hin : q.cursor + batch.length ≤ q.listCount) :
    let moved := movedBy (fun e => decide (e.start.toNat ≤ sk.target.toNat)) batch
    Sequencer.examineForward sk batch q
      = ({ q with
            cursor := q.cursor + moved
            seek := some (sk.examined batch moved (moved < heldRun batch ∨ q.cursor + moved = q.listCount)) }, []) := by
  induction batch generalizing q with
  | nil =>
    have : ¬(0 < 0 ∨ q.cursor + 0 = q.listCount) := by omega
    exact (congrArg (fun y => ({ q with seek := some y }, [])) (if_neg this).symm :)
  | cons x rest ih =>
    intro moved
    unfold Sequencer.examineForward
    cases hx : x.entry with
    | none =>
      obtain ⟨hmoved, hheld⟩ := movedBy_awaiting (goesOn := fun e => decide (e.start.toNat ≤ sk.target.toNat))
        (rest := rest) hx
      simp only [moved, hmoved, hheld, Seek.examined, Nat.add_zero, Nat.lt_irrefl, hcursor, or_self, if_false,
        List.drop_zero]
    | some e =>
      by_cases hgoes : e.start.toNat ≤ sk.target.toNat
      · obtain ⟨hmoved, hheld⟩ := movedBy_goesOn (goesOn := fun e => decide (e.start.toNat ≤ sk.target.toNat))
          (rest := rest) hx (decide_eq_true hgoes)
        have hlength : (x :: rest).length = rest.length + 1 := rfl
        simp only [moved, hmoved, hheld, if_pos hgoes]
        by_cases hend : q.cursor + 1 = q.listCount
        · have hnil : rest = [] := List.eq_nil_of_length_eq_zero (by omega)
          rw [if_pos hend, hnil]
          simp only [movedBy, heldRun, List.takeWhile_nil, List.length_nil, Nat.zero_add, Seek.examined, hend, or_true,
            if_true]
          rfl
        · rw [if_neg hend, ih hend (by dsimp only; omega)]
          simp only [Seek.examined, Nat.add_lt_add_iff_right, Nat.add_assoc, Nat.add_comm 1, List.drop_succ_cons]
      · obtain ⟨hmoved, hheld⟩ := movedBy_stops (goesOn := fun e => decide (e.start.toNat ≤ sk.target.toNat))
          (rest := rest) hx (by simpa using hgoes)
        simp only [moved, hmoved, hheld, if_neg hgoes, Seek.examined, Nat.zero_lt_succ, true_or, if_true]
        rfl

theorem Sequencer.examineBackward_eq (sk : Seek) (batch : List SeekItem) {q : Sequencer}
    (hcursor : q.cursor ≠ 0) (hin : batch.length ≤ q.cursor) :
    let moved := movedBy (fun e => decide (sk.target.toNat < e.start.toNat)) batch
    Sequencer.examineBackward sk batch q
      = ({ q with
            cursor := q.cursor - moved
            seek := some (sk.examined batch moved (moved < heldRun batch ∨ q.cursor - moved = 0)) }, []) := by
  induction batch generalizing q with
  | nil =>
    have : ¬(0 < 0 ∨ q.cursor - 0 = 0) := by omega
    exact (congrArg (fun y => ({ q with seek := some y }, [])) (if_neg this).symm :)
  | cons x rest ih =>
    intro moved
    unfold Sequencer.examineBackward
    cases hx : x.entry with
    | none =>
      obtain ⟨hmoved, hheld⟩ := movedBy_awaiting (goesOn := fun e => decide (sk.target.toNat < e.start.toNat))
        (rest := rest) hx
      simp only [moved, hmoved, hheld, Seek.examined, Nat.sub_zero, Nat.lt_irrefl, hcursor, or_self, if_false,
        List.drop_zero]
    | some e =>
      by_cases hgoes : sk.target.toNat < e.start.toNat
      · obtain ⟨hmoved, hheld⟩ := movedBy_goesOn (goesOn := fun e => decide (sk.target.toNat < e.start.toNat))
          (rest := rest) hx (decide_eq_true hgoes)
        have hlength : (x :: rest).length = rest.length + 1 := rfl
        simp only [moved, hmoved, hheld, gt_iff_lt, if_pos hgoes]
        by_cases hend : q.cursor - 1 = 0
        · have hnil : rest = [] := List.eq_nil_of_length_eq_zero (by omega)
          rw [if_pos hend, hnil]
          simp only [movedBy, heldRun, List.takeWhile_nil, List.length_nil, Nat.zero_add, Seek.examined, hend, or_true,
            if_true]
          rfl
        · rw [if_neg hend, ih hend (by dsimp only; omega)]
          simp only [Seek.examined, Nat.add_lt_add_iff_right, Nat.sub_sub, Nat.add_comm 1, List.drop_succ_cons]
      · obtain ⟨hmoved, hheld⟩ := movedBy_stops (goesOn := fun e => decide (sk.target.toNat < e.start.toNat))
          (rest := rest) hx (by simpa using hgoes)
        simp only [moved, hmoved, hheld, gt_iff_lt, if_neg hgoes, Seek.examined, Nat.zero_lt_succ, true_or, if_true]
        rfl

/-! ## What a Sequencer's step leaves beside the Sequencer -/

/-- Between `s` and `t` a Sequencer sent `outs` and became `q`. -/
theorem State.seqStep_aud_ne (s : State) {k j : Aud} (hj : j ≠ k) (f : SeqEnv → Sequencer → Sequencer × List SeqOut) :
    (s.seqStep k f).aud j = s.aud j := (s.onlyAud_seqStep k f).others j hj

section Step
variable {s : State} {k : Aud} {f : SeqEnv → Sequencer → Sequencer × List SeqOut} {q : Sequencer} {outs : List SeqOut}
  (h : f (s.seqEnv k) (s.aud k).seq = (q, outs))
include h

theorem State.seqStep_of_eq : s.seqStep k f = (s.seqSendAll k outs).modAud k fun a => { a with seq := q } := by
  rw [State.seqStep_eq, h]

theorem State.seqStep_seq : ((s.seqStep k f).aud k).seq = q := by
  rw [State.seqStep_of_eq h, State.aud_modAud_same]

theorem State.seqStep_sameWriter : State.SameWriter k (s.seqStep k f) (s.seqSendAll k outs) := by
  rw [State.seqStep_of_eq h]
  exact State.modAud_sameWriter _ k fun _ _ => rfl

theorem State.seqStep_builder : ((s.seqStep k f).aud k).builder = ((s.seqSendAll k outs).aud k).builder := by
  rw [State.seqStep_of_eq h, State.aud_modAud_same]

/-- A Sequencer that sends nothing to the Builder changes itself and the Report Writer. -/
theorem State.seqStep_silent (hsilent : ∀ o ∈ outs, o.toBuilder = false) : (s.seqStep k f).aud k
    = { s.aud k with seq := q, writer := ((s.seqStep k f).aud k).writer } := by
  have hbuilder := (State.seqStep_builder h).trans (s.seqSendAll_builder_silent k hsilent)
  exact (s.seqStep_aud k f).trans (by rw [h, hbuilder])

theorem State.seqStep_reads {x : Binding} (hx : s.binding k .cues = some x)
    (hin : ∀ y ∈ outs.filterMap SeqOut.entry, 32 + 32 * y.1 + 31 ≤ x.limit.toNat)
    {purpose : Nat → Purpose} {indices : List Nat}
    (hasks : outs.filterMap SeqOut.entry = indices.map fun i => (i, purpose i)) :
    s.EntriesRead (s.seqStep k f) k purpose indices := by
  obtain ⟨made, hmakes, hasked⟩ := State.makes_seqSendAll hx hin
  rw [State.seqStep_of_eq h]
  exact (hmakes.then_modAud _).entriesRead (hasked.trans (by rw [hasks]))

end Step

theorem filterMap_entry_run {read : Nat → SeqOut} {purpose : Nat → Purpose} (run : List Nat)
    (hread : ∀ i, (read i).entry = some (i, purpose i)) :
    (run.map read).filterMap SeqOut.entry = run.map fun i => (i, purpose i) := by
  rw [List.filterMap_map]
  have : (SeqOut.entry ∘ read) = fun i => some (i, purpose i) := funext hread
  rw [this]
  exact congrFun (List.filterMap_eq_map (f := fun i => (i, purpose i))) run

theorem map_seekItem_index (run : List Nat) : (run.map seekItem).map SeekItem.index = run := by
  rw [List.map_map]
  exact List.map_id run

theorem Seek.nextRun_reads (q : Sequencer) (run : List Nat) :
    (run.map fun i => SeqOut.readScan q.seekGen i).filterMap SeqOut.entry
      = run.map fun i => (i, Purpose.scanRead q.seekGen i) :=
  filterMap_entry_run run fun _ => rfl

/-- Settles O28. -/
theorem probeChoosesTheDirection : Obligations.ProbeChoosesTheDirection := by
  unfold Obligations.ProbeChoosesTheDirection
  refine ⟨?_, ?_, ?_⟩
  · intro k tag gen a d sk s hrunning h haud hp hcurrent hgen hseeking hseek hphase hundecided hcursor hbatch start
      cursor
    let held := { sk with batch := holdItem ((s.aud k).seq.cursor - 1) (parseEntry (a.received d)) sk.batch }
    have hprobe : (s.aud k).seq.scanDone ((s.aud k).seq.cursor - 1) (parseEntry (a.received d))
        = (s.aud k).seq.examineProbe held (parseEntry (a.received d)) := by
      unfold Sequencer.scanDone
      rw [hseek]
      refine (if_pos hphase).trans ?_
      unfold Sequencer.examineScan
      simp only [hundecided, hbatch, holdItem, List.map_cons, List.map_nil, and_self, if_true, List.head?_cons,
        Option.bind_some, held]
    obtain ⟨cursor', phase, direction, run, hspec, hafter, hbefore, hnone, hlt⟩ :=
      (s.aud k).seq.examineProbe_spec (sk := held) (parseEntry (a.received d)) hphase
    have hstep := hprobe.trans hspec
    have hreads := Sequencer.sendsReads_run (q := (s.aud k).seq) (run := run)
      (read := fun i => .readScan (s.aud k).seq.seekGen i) (purpose := fun i => .scanRead (s.aud k).seq.seekGen i)
      (fun _ => ⟨rfl, rfl, rfl, rfl⟩) hlt
    have hseq := State.seqStep_seq (s := s.dropAccess tag) (k := k)
      (f := fun _ q => q.scanDone ((s.aud k).seq.cursor - 1) (parseEntry (a.received d))) hstep
    have hquiet := State.seqStep_silent (s := s.dropAccess tag) (k := k)
      (f := fun _ q => q.scanDone ((s.aud k).seq.cursor - 1) (parseEntry (a.received d))) hstep hreads.silent
    refine ⟨_, _, h.scanRead_ok hrunning haud hp hcurrent hgen d, congrArg Sequencer.seek hseq, rfl,
      (congrArg Sequencer.state hseq).trans hseeking,
      fun hlate => ?_, fun hearly => ?_, fun x hx => ?_, fun hre => ?_, ?_, ?_, rfl,
      fun j hj => State.seqStep_aud_ne _ hj _, fun x hx hin hle => ?_⟩
    · obtain ⟨hdirection, hnow, hend, hnext⟩ := hafter hlate
      rw [hseq]
      exact ⟨hdirection, hnow, fun h1 => hend (by omega), fun h1 => ⟨(hnext (by omega)).1, by
        rw [map_seekItem_index]; exact (hnext (by omega)).2⟩⟩
    · obtain ⟨hdirection, hnow, hend, hnext⟩ := hbefore hearly
      rw [hseq]
      exact ⟨hdirection, hnow, hend, fun h1 => ⟨(hnext h1).1, by rw [map_seekItem_index]; exact (hnext h1).2⟩⟩
    · obtain ⟨i, _, rfl⟩ := List.mem_map.mp hx
      rfl
    · dsimp only
      rw [hnone hre]
      rfl
    · rw [hseq]; exact hquiet
    · rw [hseq]
    · have hasks : (run.map fun i => SeqOut.readScan (s.aud k).seq.seekGen i).filterMap SeqOut.entry
          = run.map fun i => (i, Purpose.scanRead gen i) := by
        rw [hgen]; exact filterMap_entry_run run fun _ => rfl
      have hfits : ∀ y ∈ (run.map fun i => SeqOut.readScan (s.aud k).seq.seekGen i).filterMap SeqOut.entry,
          32 + 32 * y.1 + 31 ≤ x.limit.toNat := fun y hy => by
        have := hreads.within hle y hy
        omega
      have hwriter := (State.seqStep_sameWriter (s := s.dropAccess tag) (k := k)
        (f := fun _ q => q.scanDone ((s.aud k).seq.cursor - 1) (parseEntry (a.received d))) hstep).trans
        (State.seqSendAll_sameWriter (s := s.dropAccess tag) hx hfits hreads.textless)
      rw [hreads.reported] at hwriter
      rw [map_seekItem_index]
      exact ⟨State.seqStep_reads (s := s.dropAccess tag) (k := k)
        (f := fun _ q => q.scanDone ((s.aud k).seq.cursor - 1) (parseEntry (a.received d))) hstep hx hfits hasks,
        hwriter.writer⟩
  · intro k tag gen index a d sk s hrunning h haud hp hcurrent hgen hseek hphase hdecided hawaits hforward
      hbackward q batch goesOn moved cursor ended
    have hbatch : batch = holdItem index (parseEntry (a.received d)) sk.batch := rfl
    have hlength : batch.length = sk.batch.length := List.length_map _
    obtain ⟨y, hy, _⟩ := hawaits
    have hsome := List.length_pos_of_mem hy
    have hdone : q.scanDone index (parseEntry (a.received d)) = ({ q with
        cursor := cursor
        seek := some (if ended then { sk with phase := .reentry, batch := [] }
          else { sk with batch := batch.drop moved }) }, []) := by
      unfold Sequencer.scanDone
      rw [hseek]
      refine (if_pos hphase).trans ?_
      obtain hdirection | hdirection := Direction.forward_or_backward hdecided
      · rw [Sequencer.examineScan_forward (sk := { sk with batch := holdItem index _ sk.batch }) hdirection]
        have hgoes : goesOn = fun e => decide (e.start.toNat ≤ sk.target.toNat) := funext fun e => if_pos hdirection
        have hmoved : moved = movedBy (fun e => decide (e.start.toNat ≤ sk.target.toNat)) batch := by
          simp only [moved, hgoes, movedBy]
        have hcursor : cursor = q.cursor + moved := if_pos hdirection
        have hended : ended ↔ (moved < heldRun batch ∨ q.cursor + moved = q.listCount) := by
          simp only [ended, hcursor, hdirection, if_true, heldRun]
        have hin : q.cursor + sk.batch.length ≤ q.listCount := hforward hdirection
        have hstart : q.cursor ≠ q.listCount := by omega
        have hexamined := Sequencer.examineForward_eq { sk with batch := batch } batch (q := q) hstart
          (by rw [hlength]; exact hin)
        simp only [← hmoved, ← hcursor] at hexamined hended
        simp only [hended]
        exact hexamined
      · rw [Sequencer.examineScan_backward (sk := { sk with batch := holdItem index _ sk.batch }) hdirection]
        have hforth : ¬sk.direction = .forward := fun h => nomatch hdirection.symm.trans h
        have hgoes : goesOn = fun e => decide (sk.target.toNat < e.start.toNat) := funext fun e => if_neg hforth
        have hmoved : moved = movedBy (fun e => decide (sk.target.toNat < e.start.toNat)) batch := by
          simp only [moved, hgoes, movedBy]
        have hcursor : cursor = q.cursor - moved := if_neg hforth
        have hended : ended ↔ (moved < heldRun batch ∨ q.cursor - moved = 0) := by
          simp only [ended, hcursor, hforth, if_false, heldRun]
        have hin : sk.batch.length ≤ q.cursor := hbackward hdirection
        have hstart : q.cursor ≠ 0 := by omega
        have hexamined := Sequencer.examineBackward_eq { sk with batch := batch } batch (q := q) hstart
          (by rw [hlength]; exact hin)
        simp only [← hmoved, ← hcursor] at hexamined hended
        simp only [hended]
        exact hexamined
    rw [h.scanRead_ok hrunning haud hp hcurrent hgen d, State.seqStep_of_eq (s := s.dropAccess tag) hdone]
    rfl
  · intro k o sk s hdue hrunning hshow hclock hsilence hseeking hseek hcandidates
    have hkept := Clock.not_loses hsilence
    have h : s.KeptBoundary k := ⟨hrunning, by rw [hshow]; exact (fun h => nomatch h), hclock, hkept⟩
    intro q items below direction next scanEnds looks after flew fits
    have hupdate : s.boundaryUpdate k = q.seekUpdate (s.seqEnv k) := by
      unfold State.boundaryUpdate Sequencer.update
      rw [hseeking]
    have hends : scanEnds ↔ sk.phase = .scan ∧ sk.batch = [] ∧ sk.AtEnd q := Iff.rfl
    have hlooks : looks ↔ sk.Looks q := Iff.rfl
    have hafter : after.lookback = sk.lookback ∧ after.candidates = sk.candidates := by
      simp only [after]
      split <;> exact ⟨rfl, rfl⟩
    have hlooked (hl : looks) :
        s.boundaryUpdate k = Sequencer.reentryUpdate { q with seek := some after } (s.seqEnv k) after := by
      obtain ⟨hends' | hphase, _⟩ := hl
      · have hafter : after = { sk with phase := .reentry, direction := direction, batch := [] } := if_pos hends'
        rw [hupdate, hafter]
        exact Sequencer.seekUpdate_ends hseek (s.seqEnv k) hends'.1 hends'.2.1 hends'.2.2
      · have hnot : ¬scanEnds := fun g => by have := g.1; rw [hphase] at this; exact nomatch this
        have hafter : after = sk := if_neg hnot
        rw [hupdate, hafter, ← hseek]
        exact Sequencer.seekUpdate_reentry hseek (s.seqEnv k) hphase
    have hreads : q.SendsReads (s.boundaryUpdate k).2 (if looks ∧ q.cursor = 0 then [.seekDone 0 0] else []) := by
      obtain ⟨hdone, hgoing⟩ := Sequencer.seekUpdate_sends hseek (s.seqEnv k) hcandidates
      rw [hupdate]
      by_cases hfound : looks ∧ q.cursor = 0
      · rw [if_pos hfound]; exact hdone hfound
      · rw [if_neg hfound]; exact hgoing hfound
    have hread {purpose : Nat → Purpose} {indices : List Nat} (hf : fits)
        (hasks : (s.boundaryUpdate k).2.filterMap SeqOut.entry = indices.map fun i => (i, purpose i)) :
        s.EntriesRead (s.takeBoundary k o) k purpose indices := by
      obtain ⟨_, ⟨x, hx, hin⟩, hle⟩ := hf
      refine h.entriesRead hx hasks (fun i hi => ?_) o
      have := hreads.within hle (i, purpose i) (by rw [hasks]; exact List.mem_map_of_mem hi)
      omega
    refine ⟨_, execFrameBoundary_due hdue o, s.onlyAud_takeBoundary k o, ?_, fun hphase hbatch => ?_,
      fun hphase hlook => ?_, fun hphase hbatch hnot => ?_, fun hl hcursor => ?_, fun hl hcursor hwindow => ?_,
      fun hf => ?_⟩
    · rw [h.builder o, State.seqSendAll_builder_silent _ k hreads.silent, State.reportAll_aud]
    · have hu := hupdate.trans (Sequencer.seekUpdate_scanning hseek (s.seqEnv k) hphase hbatch)
      exact ⟨by rw [h.seq o, hu], fun hf => hread hf (by rw [hu]; rfl)⟩
    · obtain ⟨items', hitems⟩ := Option.ne_none_iff_exists'.mp hlook
      have hu := hupdate.trans ((Sequencer.seekUpdate_reentry hseek (s.seqEnv k) hphase).trans
        (Sequencer.reentryUpdate_looking (s.seqEnv k) hitems))
      exact ⟨by rw [h.seq o, hu], fun hf => hread hf (by rw [hu]; rfl)⟩
    · have hu := hupdate.trans (Sequencer.seekUpdate_issues hseek (s.seqEnv k) hphase hbatch
        fun hat => hnot (hends.mpr ⟨hphase, hbatch, hat⟩))
      have hnext : next = sk.nextRun q := rfl
      exact ⟨by rw [h.seq o, hu]; rfl, fun hf => hread hf (by rw [hu]; exact Seek.nextRun_reads q _)⟩
    · have hu := (hlooked hl).trans (Sequencer.reentryUpdate_looks (q := { q with seek := some after }) (s.seqEnv k)
        (hafter.1.trans hl.2) hcursor)
      exact ⟨by rw [h.seq o, hu]; rfl, fun hf => hread hf (by rw [hu]; exact filterMap_entry_run _ fun _ => rfl)⟩
    · have hmissing : Sequencer.missing { q with seek := some after } = List.range (min 16 q.listCount) := by
        unfold Sequencer.missing
        simp only [hcursor, hwindow, List.length_nil, Nat.zero_add, List.drop_zero]
      have hu := (hlooked hl).trans ((Sequencer.reentryUpdate_completes (q := { q with seek := some after }) (s.seqEnv k)
        (hafter.1.trans hl.2) hcursor).trans (Sequencer.completeReentry_empty (s.seqEnv k)
          (hafter.2.trans (hcandidates hl.2))))
      rw [hmissing] at hu
      have hseq := h.seq o
      rw [hu] at hseq
      refine ⟨?_, fun c => ?_, fun hf => hread hf ?_⟩
      · rw [hseq]
        simp only [hwindow, List.nil_append]
        rfl
      · rw [hseq]
      · rw [hu]
        exact filterMap_entry_run _ fun _ => rfl
    · obtain ⟨hrecord, ⟨x, hx, hin⟩, hle⟩ := hf
      rw [h.writer hrecord o, Clock.silenceReports_kept hkept, State.reportAll_append, ← hreads.reported]
      refine (State.seqSendAll_sameWriter (x := x) ?_ (fun y hy => ?_) hreads.textless).writer
      · exact (State.binding_congr (s.onlyAud_reportAll k _).bindings k _).trans hx
      · have := hreads.within hle y hy
        omega

end Sys2Proof.Machine
end

section
/-! SUPPORT. Entry reads and text reads that end (R44 to R48). -/

namespace Sys2Proof.Machine

/-! ## Classification (R44, R45) -/

/-- R44: the entry is withdrawn, by itself or in its slot. -/
abbrev Slot.Withdrawn (x : Slot) (e : CueEntry) : Prop := x.retracted = true ∨ e.retracted = true

/-- R44, R45: the entry is a caption that meets the payload check. -/
abbrev Slot.Captions (env : SeqEnv) (x : Slot) (e : CueEntry) : Prop :=
  ¬x.Withdrawn e ∧ ¬e.isBad = true ∧ e.kind = 1#8 ∧ captionEnabled env.mask e.channelOf = true

/-- R45: the text lies within the PAYLOAD binding. -/
def CueEntry.Within (env : SeqEnv) (e : CueEntry) : Prop :=
  ∃ p ∈ env.payload, e.payloadOffset.toNat + e.textLength - 1 ≤ p.2.toNat

/-- R45: the reports of a text beyond its binding. -/
def CueEntry.beyond (env : SeqEnv) (e : CueEntry) : List Report :=
  env.payload.toList.map fun p => .regionFault .payload p.1 .limit e.payloadOffset.toNat

section Classify
variable {env : SeqEnv} {x : Slot} {e : CueEntry} (gen : Nat)

theorem classify_withdrawn (h : x.Withdrawn e) : classify env gen x e
    = { slot := { x with entry := some e, state := .ready, retracted := true }, truncated := 0, outs := [] } := by
  unfold classify
  exact if_pos (by rw [Bool.or_eq_true]; exact h)

theorem classify_bad (h : ¬x.Withdrawn e) (hbad : e.isBad = true) : classify env gen x e
    = { slot := { x with entry := some e, state := .ready, bad := true }, truncated := 0, outs := [] } := by
  unfold classify
  exact (if_neg (by rw [Bool.or_eq_true]; exact h)).trans (if_pos hbad)

/-- R38: an entry that is not bad is a CAPTION or a CLEAR of one of the four channels. -/
theorem CueEntry.isBad_iff (e : CueEntry) : e.isBad = true
    ↔ (e.kind ≠ 1#8 ∧ e.kind ≠ 2#8) ∨ 3 < e.channel.toNat ∨ e.finish.toNat ≤ e.start.toNat := by
  simp [CueEntry.isBad, or_assoc]

theorem classify_plain (h : ¬x.Withdrawn e) (hbad : ¬e.isBad = true) (hplain : ¬x.Captions env e) :
    classify env gen x e = { slot := { x with entry := some e, state := .ready }, truncated := 0, outs := [] } := by
  have hkind : (!captionEnabled env.mask e.channelOf || e.kind == 2) = true := by
    by_contra hnot
    simp only [Bool.not_eq_true, Bool.or_eq_false_iff, Bool.not_eq_false'] at hnot
    have hclear : e.kind ≠ 2#8 := by simpa using hnot.2
    have hcaption : e.kind = 1#8 := by
      by_contra hne
      exact hbad (e.isBad_iff.mpr (.inl ⟨hne, hclear⟩))
    exact hplain ⟨h, hbad, hcaption, hnot.1⟩
  unfold classify
  exact (if_neg (by rw [Bool.or_eq_true]; exact h)).trans ((if_neg hbad).trans (if_pos hkind))

theorem classify_caption (h : x.Captions env e) :
    classify env gen x e = classifyCaption env gen { x with entry := some e } e := by
  obtain ⟨hkept, hbad, hkind, henabled⟩ := h
  unfold classify
  exact (if_neg (by rw [Bool.or_eq_true]; exact hkept)).trans
    ((if_neg hbad).trans (if_neg (by rw [henabled, hkind]; decide)))

theorem classifyCaption_empty (h : e.textLength = 0) : classifyCaption env gen x e
    = { slot := { x with state := .loaded, text := some [] }, truncated := if e.isTruncated then 1 else 0
        outs := [] } := by
  unfold classifyCaption
  exact if_pos h

theorem classifyCaption_within (h : e.textLength ≠ 0) (hin : e.Within env) : classifyCaption env gen x e
    = { slot := { x with state := .fetching }, truncated := if e.isTruncated then 1 else 0
        outs := [.readText gen { epoch := env.epoch, index := x.index } e.payloadOffset.toNat e.textLength] } := by
  obtain ⟨⟨selector, limit⟩, hp, hlimit⟩ := hin
  unfold classifyCaption
  rw [Option.mem_def.mp hp]
  exact (if_neg h).trans (if_pos (decide_eq_true hlimit))

theorem classifyCaption_beyond (h : e.textLength ≠ 0) (hout : ¬e.Within env) : classifyCaption env gen x e
    = { slot := { x with state := .ready, bad := true }, truncated := if e.isTruncated then 1 else 0
        outs := (e.beyond env).map .report } := by
  unfold classifyCaption CueEntry.beyond
  cases hp : env.payload with
  | none => exact if_neg h
  | some p => exact (if_neg h).trans (if_neg fun g => hout ⟨p, hp, of_decide_eq_true g⟩)

end Classify

theorem State.seqSendAll_reports (s : State) (k : Aud) (l : List Report) :
    s.seqSendAll k (l.map .report) = s.reportAll k l := by
  induction l generalizing s with
  | nil => rfl
  | cons r rest ih => exact ih (s.report k r)

/-- Text lies within PAYLOAD, as the state's binding has it. -/
theorem CueEntry.within_iff (s : State) (k : Aud) (e : CueEntry) : e.Within (s.seqEnv k)
    ↔ ∃ p ∈ s.binding k .payload, e.payloadOffset.toNat + min e.payloadLength.toNat 192 - 1 ≤ p.limit.toNat := by
  have hpayload : (s.seqEnv k).payload = (s.binding k .payload).map fun b => (b.selector, b.limit) := rfl
  unfold CueEntry.Within
  rw [hpayload]
  cases s.binding k .payload <;> simp [CueEntry.textLength, Config.textLimit]

theorem CueEntry.beyond_eq (s : State) (k : Aud) (e : CueEntry) : e.beyond (s.seqEnv k)
    = (s.binding k .payload).toList.map fun p =>
        .regionFault .payload p.selector .limit e.payloadOffset.toNat := by
  have hpayload : (s.seqEnv k).payload = (s.binding k .payload).map fun b => (b.selector, b.limit) := rfl
  unfold CueEntry.beyond
  rw [hpayload]
  cases s.binding k .payload <;> rfl

/-- R44: the slot that awaits its entry is classified in its place. -/
theorem Sequencer.entryDone_eq {q : Sequencer} {env : SeqEnv} {x : Slot} {before after : List Slot} {e : CueEntry}
    (hwindow : q.window = before ++ x :: after) (hreading : x.state = .reading)
    (hother : ∀ y ∈ before ++ after, y.index ≠ x.index) : q.entryDone env x.index e
      = ({ q with
            window := before ++ (classify env q.seekGen x e).slot :: after
            truncated := q.truncated + BitVec.ofNat 32 (classify env q.seekGen x e).truncated },
          (classify env q.seekGen x e).outs) := by
  have hx : x.awaits x.index = true := by simp [Slot.awaits, hreading]
  have hothers (l : List Slot) (hl : ∀ y ∈ l, y.index ≠ x.index) : ∀ y ∈ l, ¬y.awaits x.index = true := fun y hy h => by
    simp only [Slot.awaits, Bool.and_eq_true, beq_iff_eq] at h
    exact hl y hy h.1
  have hbefore := hothers before fun y hy => hother y (List.mem_append_left _ hy)
  have hafter := hothers after fun y hy => hother y (List.mem_append_right _ hy)
  have hfind : q.window.find? (Slot.awaits x.index) = some x := by
    rw [hwindow, List.find?_append, List.find?_eq_none.mpr hbefore, List.find?_cons_of_pos hx]
    rfl
  have hmap (l : List Slot) (hl : ∀ y ∈ l, ¬y.awaits x.index = true) (z : Slot) :
      l.map (fun y => if y.awaits x.index then z else y) = l :=
    (List.map_congr_left fun y hy => if_neg (hl y hy)).trans (List.map_id l)
  unfold Sequencer.entryDone
  rw [hfind]
  simp only [hwindow, List.map_append, List.map_cons, hmap before hbefore, hmap after hafter, hx, if_true]

theorem CueEntry.channelOf_val {e : CueEntry} (h : ¬e.isBad = true) : e.channelOf.val = e.channel.toNat := by
  have hchannel : ¬3 < e.channel.toNat := fun g => h (e.isBad_iff.mpr (.inr (.inl g)))
  exact Nat.mod_eq_of_lt (by omega)

theorem State.sendText_sameWriter {s : State} {k : Aud} {p : Binding} (hp : s.binding k .payload = some p)
    {offset length : Nat} (hin : offset + length - 1 ≤ p.limit.toNat) (gen : Nat) (cue : CueId) :
    State.SameWriter k (s.seqSendAll k [.readText gen cue offset length]) s :=
  State.access_sameWriter (fun y hy => by rw [hp] at hy; cases hy; exact hin) _ _

/-- Settles O26. -/
theorem entryReadClassifiesItsSlot : Obligations.EntryReadClassifiesItsSlot := by
  unfold Obligations.EntryReadClassifiesItsSlot
  intro k tag gen a d x before after s hrunning h haud hp hcurrent hgen hwindow hreading hother e channel withdrawn bad
    caption length within read faulted
  have henv : (s.dropAccess tag).seqEnv k = s.seqEnv k := rfl
  have hbad : bad ↔ e.isBad = true := e.isBad_iff.symm
  have hwithin : within ↔ e.Within (s.seqEnv k) := (CueEntry.within_iff s k e).symm
  have hlength : length = e.textLength := rfl
  have hcaption : caption ↔ x.Captions (s.seqEnv k) e := by
    refine and_congr_right fun _ => ⟨fun ⟨hnot, hkind, hmask⟩ => ⟨mt hbad.mpr hnot, hkind, ?_⟩,
      fun ⟨hnot, hkind, hmask⟩ => ⟨mt hbad.mp hnot, hkind, ?_⟩⟩
    · unfold captionEnabled
      rw [CueEntry.channelOf_val (mt hbad.mpr hnot)]
      exact hmask
    · unfold captionEnabled at hmask
      rwa [CueEntry.channelOf_val hnot] at hmask
  have hdone := Sequencer.entryDone_eq (env := s.seqEnv k) (e := e) hwindow hreading hother
  generalize hc : classify (s.seqEnv k) (s.aud k).seq.seekGen x e = c at hdone
  have hclass : c.slot = (if withdrawn then { read with state := .ready, retracted := true }
          else if bad then { read with state := .ready, bad := true }
          else if ¬caption then { read with state := .ready }
          else if length = 0 then { read with state := .loaded, text := some [] }
          else if within then { read with state := .fetching }
          else { read with state := .ready, bad := true })
      ∧ BitVec.ofNat 32 c.truncated = (if caption ∧ 192 < e.payloadLength.toNat then 1 else 0)
      ∧ (¬(caption ∧ 0 < length ∧ within) → c.outs
          = (if caption ∧ 0 < length ∧ ¬within then (s.binding k .payload).toList.map fun p =>
              Report.regionFault .payload p.selector .limit e.payloadOffset.toNat
            else []).map .report)
      ∧ (caption → 0 < length → within → c.outs = [.readText gen { epoch := (s.seqEnv k).epoch, index := x.index }
          e.payloadOffset.toNat length]) := by
    rw [← hc]
    by_cases hcap : caption
    · have hkept : ¬withdrawn := hcap.1
      have hgood : ¬bad := hcap.2.1
      have hcut : BitVec.ofNat 32 (if e.isTruncated = true then 1 else 0)
          = (if caption ∧ 192 < e.payloadLength.toNat then 1 else 0 : Word) := by
        by_cases hlong : 192 < e.payloadLength.toNat <;>
          simp [CueEntry.isTruncated, Config.textLimit, hcap, hlong]
      rw [if_neg hkept, if_neg hgood, if_neg (not_not_intro hcap), classify_caption _ (hcaption.mp hcap)]
      by_cases hempty : length = 0
      · rw [if_pos hempty, classifyCaption_empty (x := read) _ hempty]
        have hnot : ¬0 < length := by omega
        exact ⟨rfl, hcut, fun _ => (congrArg (List.map SeqOut.report)
          ((if_neg fun g : caption ∧ 0 < length ∧ ¬within => hnot g.2.1) : _ = [])).symm, fun _ g _ => absurd g hnot⟩
      · rw [if_neg hempty]
        have hsome : 0 < length := Nat.pos_of_ne_zero hempty
        by_cases hin : within
        · rw [if_pos hin, classifyCaption_within (x := read) _ hempty (hwithin.mp hin)]
          exact ⟨rfl, hcut, fun g => absurd ⟨hcap, hsome, hin⟩ g, fun _ _ _ => by rw [hgen]; rfl⟩
        · rw [if_neg hin, classifyCaption_beyond (x := read) _ hempty (mt hwithin.mpr hin), CueEntry.beyond_eq]
          exact ⟨rfl, hcut, fun _ => (congrArg (List.map SeqOut.report)
            (if_pos ⟨hcap, hsome, hin⟩)).symm, fun _ _ g => absurd g hin⟩
    · have hnone : ¬(caption ∧ 0 < length ∧ ¬within) := fun g => hcap g.1
      rw [if_neg hnone, if_neg fun g : caption ∧ 192 < e.payloadLength.toNat => hcap g.1]
      by_cases hw : withdrawn
      · rw [if_pos hw, classify_withdrawn _ hw]
        exact ⟨rfl, rfl, fun _ => rfl, fun g => absurd g hcap⟩
      · rw [if_neg hw]
        by_cases hb : bad
        · rw [if_pos hb, classify_bad _ hw (hbad.mp hb)]
          exact ⟨rfl, rfl, fun _ => rfl, fun g => absurd g hcap⟩
        · rw [if_neg hb, if_pos hcap, classify_plain _ hw (mt hbad.mpr hb) (mt hcaption.mpr hcap)]
          exact ⟨rfl, rfl, fun _ => rfl, fun g => absurd g hcap⟩
  obtain ⟨hslot, hcut, hquiet, hreads⟩ := hclass
  have hsilent : ∀ o ∈ c.outs, o.toBuilder = false := by
    by_cases hr : caption ∧ 0 < length ∧ within
    · rw [hreads hr.1 hr.2.1 hr.2.2]
      exact fun o ho => by rw [List.mem_singleton.mp ho]; rfl
    · rw [hquiet hr]
      exact fun o ho => by obtain ⟨r, _, rfl⟩ := List.mem_map.mp ho; rfl
  have hstep := State.seqStep_silent (s := s.dropAccess tag) (k := k)
    (f := fun env q => q.entryDone env x.index e) hdone hsilent
  have hsame := State.seqStep_sameWriter (s := s.dropAccess tag) (k := k)
    (f := fun env q => q.entryDone env x.index e) hdone
  have heq := State.seqStep_of_eq (s := s.dropAccess tag) (k := k)
    (f := fun env q => q.entryDone env x.index e) hdone
  have hwriter : State.SameWriter k ((s.dropAccess tag).seqSendAll k c.outs) faulted := by
    by_cases hr : caption ∧ 0 < length ∧ within
    · obtain ⟨p, hpay, hlimit⟩ := hr.2.2
      have hnone : faulted = s.dropAccess tag := by
        simp only [faulted, if_neg fun g : caption ∧ 0 < length ∧ ¬within => g.2.2 hr.2.2]
        rfl
      rw [hreads hr.1 hr.2.1 hr.2.2, hnone]
      exact State.sendText_sameWriter (s := s.dropAccess tag) (p := p) hpay hlimit _ _
    · rw [hquiet hr, State.seqSendAll_reports]
      exact .refl k _
  refine ⟨_, c.slot, h.entryRead_ok hrunning haud hp hcurrent hgen d, fun j hj => State.seqStep_aud_ne _ hj _,
    (State.onlyAud_seqStep (s.dropAccess tag) k _).bindings, ?_, hslot, fun hr => ?_, fun hcap hsome hin => ?_⟩
  · refine hstep.trans ?_
    rw [(hsame.trans hwriter).writer, hcut]
    rfl
  · rw [heq, hquiet hr, State.seqSendAll_reports]
    rfl
  · obtain ⟨p, hpay, hlimit⟩ := hin
    obtain ⟨z, hmakes, hrole, hoffset, hlen, hdata, hpurpose, _⟩ := State.makes_access_made (s := s.dropAccess tag)
      (k := k) (role := .payload) (x := p) hpay (offset := e.payloadOffset.toNat) (length := length) hlimit []
      (.textRead gen { epoch := (s.seqEnv k).epoch, index := x.index })
    rw [heq, hreads hcap hsome ⟨p, hpay, hlimit⟩]
    have hall := hmakes.then_modAud (j := k) fun a => { a with seq := { (s.aud k).seq with
      window := before ++ c.slot :: after, truncated := (s.aud k).seq.truncated + BitVec.ofNat 32 c.truncated } }
    exact ⟨⟨z, hmakes.inFlight⟩, hall.issued_as (List.mem_singleton.mpr rfl) hrole hoffset hlen hdata hpurpose⟩

end Sys2Proof.Machine
end

section
/-! SUPPORT. Accesses that end in a memory error while the part is RUNNING, and the text reads (R42, R46 to R48, R143). -/

namespace Sys2Proof.Machine

/-- The purposes of a read that a completion of its own ends. -/
def Purpose.isRead : Purpose → Bool
  | .entryRead .. | .textRead .. | .scanRead .. | .lookbackRead .. | .blockRead .. => true
  | .claimRead | .startScanRead | .darkCheckRead | .headerRead | .headRead | .slotRead => true
  | .resultWrite | .snapshotWrite | .ackWrite | .flagWrite | .reportWrite | .bindingWrite | .startScanWrite => false

theorem State.isCurrent_congr {s t : State} (h : t.bindings = s.bindings) (a : Access) : t.isCurrent a = s.isCurrent a := by
  unfold State.isCurrent
  cases a.aud with
  | none => rfl
  | some k => exact congrArg (fun b : Option Binding => b.any (·.epoch == a.epoch)) (State.binding_congr h k a.role)

/-! ## How a read fails -/

section Fails
variable {s : State} {k : Aud} {tag : Nat} {a : Access} (h : s.InFlightAs tag a)

theorem State.InFlightAs.endRead_fails (h : s.InFlightAs tag a) {sort : Purpose → Bool} (hsort : sort a.purpose = true)
    {r : Completion} (hr : true = (r == .error)) :
    s.endRead tag sort r = (s.dropAccess tag).endAccess fun s => s.accessFailed a := by
  cases r with
  | ok d => exact nomatch hr
  | error => exact h.endRead_error hsort

/-- A read ends in a memory error by its completion or by its give-up. -/
theorem State.InFlightAs.readFails (h : s.InFlightAs tag a) (hread : a.purpose.isRead = true) {c : Instr}
    (hc : s.Ends a c true) :
    exec c s = .next ((s.dropAccess tag).endAccess fun s => s.accessFailed a) := by
  cases c with
  | entryReadComplete tag' r =>
    obtain ⟨rfl, ⟨_, _, hp⟩, hr⟩ := hc
    exact congrArg Host.Outcome.next (h.tagged ▸ h.endRead_fails (by rw [hp]; rfl) hr)
  | textReadComplete tag' r =>
    obtain ⟨rfl, ⟨_, _, hp⟩, hr⟩ := hc
    exact congrArg Host.Outcome.next (h.tagged ▸ h.endRead_fails (by rw [hp]; rfl) hr)
  | scanReadComplete tag' r =>
    obtain ⟨rfl, ⟨_, _, hp⟩, hr⟩ := hc
    exact congrArg Host.Outcome.next (h.tagged ▸ h.endRead_fails (by rw [hp]; rfl) hr)
  | lookbackReadComplete tag' r =>
    obtain ⟨rfl, ⟨_, _, hp⟩, hr⟩ := hc
    exact congrArg Host.Outcome.next (h.tagged ▸ h.endRead_fails (by rw [hp]; rfl) hr)
  | blockReadComplete tag' r =>
    obtain ⟨rfl, ⟨_, _, _, hp⟩, hr⟩ := hc
    exact congrArg Host.Outcome.next (h.tagged ▸ h.endRead_fails (by rw [hp]; rfl) hr)
  | descriptorReadComplete tag' r =>
    obtain ⟨rfl, hp, hr⟩ := hc
    refine congrArg Host.Outcome.next (h.tagged ▸ h.endRead_fails ?_ hr)
    simp only [List.mem_cons, List.not_mem_nil, or_false] at hp
    obtain hp | hp | hp := hp <;> rw [hp] <;> rfl
  | cueListHeaderReadComplete tag' r =>
    obtain ⟨rfl, hp, hr⟩ := hc
    exact congrArg Host.Outcome.next (h.tagged ▸ h.endRead_fails (by rw [hp]; rfl) hr)
  | headReadComplete tag' r =>
    obtain ⟨rfl, hp, hr⟩ := hc
    exact congrArg Host.Outcome.next (h.tagged ▸ h.endRead_fails (by rw [hp]; rfl) hr)
  | slotReadComplete tag' r =>
    obtain ⟨rfl, hp, hr⟩ := hc
    exact congrArg Host.Outcome.next (h.tagged ▸ h.endRead_fails (by rw [hp]; rfl) hr)
  | readGiveUp tag' =>
    obtain ⟨rfl, hdata, hold, _⟩ := hc
    exact congrArg Host.Outcome.next (h.tagged ▸ h.giveUp_overdue hdata hold)
  | writeComplete tag' ok =>
    obtain ⟨_, hp, _⟩ := hc
    simp only [List.mem_cons, List.not_mem_nil, or_false] at hp
    obtain hp | hp | hp | hp | hp := hp <;> rw [hp] at hread <;> exact nomatch hread
  | ackWriteComplete tag' ok =>
    obtain ⟨_, hp, _⟩ := hc
    rw [List.mem_singleton.mp hp] at hread
    exact nomatch hread
  | reportEntryWriteComplete tag' ok =>
    obtain ⟨_, hp, _⟩ := hc
    rw [List.mem_singleton.mp hp] at hread
    exact nomatch hread
  | _ => exact hc.elim

/-- R143: an auditorium's memory error is reported, unless it is a DARK check's or a report's. -/
theorem State.memoryFault_eq (s : State) (haud : a.aud = some k) (hdark : a.purpose ≠ .darkCheckRead)
    (hreport : a.purpose ≠ .reportWrite) :
    s.memoryFault a = s.reportAll k [.regionFault a.role a.selector .memory a.offset] := by
  unfold State.memoryFault
  rw [haud]
  dsimp only
  split
  · next hp => exact absurd hp hdark
  · next hp => exact absurd hp hreport
  · rfl

theorem State.accessFailed_eq (s : State) (haud : a.aud = some k) (hdark : a.purpose ≠ .darkCheckRead)
    (hreport : a.purpose ≠ .reportWrite) :
    s.accessFailed a = (s.reportAll k [.regionFault a.role a.selector .memory a.offset]).blockFailed k a := by
  unfold State.accessFailed
  rw [haud, ← s.memoryFault_eq haud hdark hreport]

/-- An auditorium's read that fails while the part is RUNNING is reported, and then taken by its block. -/
theorem State.InFlightAs.readFails_running (h : s.InFlightAs tag a) (hrunning : s.partState = .running)
    (haud : a.aud = some k) (hread : a.purpose.isRead = true) (hdark : a.purpose ≠ .darkCheckRead) {c : Instr}
    (hc : s.Ends a c true) : exec c s = .next (((s.dropAccess tag).reportAll k
      [.regionFault a.role a.selector .memory a.offset]).blockFailed k a) := by
  rw [h.readFails hread hc, State.endAccess_running (s := s.dropAccess tag) hrunning,
    State.accessFailed_eq _ haud hdark fun g => by rw [g] at hread; exact nomatch hread]

end Fails

/-! ## A report leaves the other blocks -/

theorem State.reportAll_isCurrent (s : State) (k : Aud) (l : List Report) (a : Access) :
    (s.reportAll k l).isCurrent a = s.isCurrent a := State.isCurrent_congr (s.onlyAud_reportAll k l).bindings a

theorem State.reportAll_seq (s : State) (k : Aud) (l : List Report) (j : Aud) :
    ((s.reportAll k l).aud j).seq = (s.aud j).seq := (congrArg Auditorium.seq (s.reportAll_aud k l j) :)

/-- What a Sequencer sends to the Builder it sends after a report all the same. -/
theorem State.reportAll_seqSendAll_builder (s : State) (k : Aud) (l : List Report) (outs : List SeqOut) :
    (((s.reportAll k l).seqSendAll k outs).aud k).builder = ((s.seqSendAll k outs).aud k).builder :=
  State.seqSendAll_builder_congr (s.onlyAud_reportAll k l).partState (s.reportAll_unit k l)
    (congrArg Auditorium.builder (s.reportAll_aud k l k) :) outs

/-! ## A Sequencer's read that fails (R47, R48) -/

theorem State.seqStep_nothing {s : State} {k : Aud} {f : SeqEnv → Sequencer → Sequencer × List SeqOut}
    (h : f (s.seqEnv k) (s.aud k).seq = ((s.aud k).seq, [])) : s.seqStep k f = s := by
  rw [State.seqStep_of_eq h]
  have hsame : (s.modAud k fun a => { a with seq := (s.aud k).seq }) = s.modAud k fun a => a := rfl
  exact hsame.trans (s.modAud_id k)

theorem State.seqFailed_current {s : State} {k : Aud} {a : Access} {gen : Nat} (hcurrent : s.isCurrent a = true)
    (hgen : gen = (s.aud k).seq.seekGen) (f : SeqEnv → Sequencer → Sequencer × List SeqOut) :
    s.seqFailed k a gen f = s.seqStep k f := if_pos ⟨hcurrent, hgen⟩

theorem State.seqFailed_stale {s : State} {k : Aud} {a : Access} {gen : Nat}
    (h : ¬(s.isCurrent a = true ∧ gen = (s.aud k).seq.seekGen)) (f : SeqEnv → Sequencer → Sequencer × List SeqOut) :
    s.seqFailed k a gen f = s := if_neg h

theorem Sequencer.scanFailed_eq (q : Sequencer) (env : SeqEnv) (index : Nat) :
    q.scanFailed env index = if q.seek.map Seek.phase = some .scan then q.faultAt env index else (q, []) := by
  unfold Sequencer.scanFailed
  cases q.seek with
  | none => rfl
  | some sk => simp only [Option.map_some, Option.some.injEq]

theorem Sequencer.lookbackFailed_eq (q : Sequencer) (env : SeqEnv) (index : Nat) :
    q.lookbackFailed env index = if q.seek.map Seek.phase = some .reentry then q.faultAt env index else (q, []) := by
  unfold Sequencer.lookbackFailed
  cases q.seek with
  | none => rfl
  | some sk => simp only [Option.map_some, Option.some.injEq]

/-- Whether the failed read of entry `index` under generation `gen` faults the Sequencer `q`. -/
def Sequencer.FaultsAt (q : Sequencer) (gen index : Nat) (purpose : Purpose) : Prop :=
  gen = q.seekGen ∧ (purpose = .entryRead gen index
    ∨ (purpose = .scanRead gen index ∧ q.seek.map Seek.phase = some .scan)
    ∨ (purpose = .lookbackRead gen index ∧ q.seek.map Seek.phase = some .reentry))

section Faults
variable {s : State} {k : Aud} {a : Access} {gen index : Nat}

theorem State.blockFailed_faults (hcurrent : s.isCurrent a = true) (hfaults : (s.aud k).seq.FaultsAt gen index a.purpose) :
    s.blockFailed k a = s.seqStep k fun env q => q.faultAt env index := by
  obtain ⟨hgen, hpurpose⟩ := hfaults
  have hstep {f : SeqEnv → Sequencer → Sequencer × List SeqOut}
      (hf : f (s.seqEnv k) (s.aud k).seq = (s.aud k).seq.faultAt (s.seqEnv k) index) :
      s.seqFailed k a gen f = s.seqStep k fun env q => q.faultAt env index := by
    rw [State.seqFailed_current hcurrent hgen, State.seqStep_eq, State.seqStep_eq, hf]
  unfold State.blockFailed
  obtain hp | ⟨hp, hphase⟩ | ⟨hp, hphase⟩ := hpurpose <;> rw [hp]
  · exact hstep rfl
  · exact hstep ((Sequencer.scanFailed_eq _ _ _).trans (if_pos hphase))
  · exact hstep ((Sequencer.lookbackFailed_eq _ _ _).trans (if_pos hphase))

theorem State.blockFailed_spares
    (hp : a.purpose ∈ [.entryRead gen index, .scanRead gen index, .lookbackRead gen index])
    (h : ¬(s.isCurrent a = true ∧ (s.aud k).seq.FaultsAt gen index a.purpose)) :
    s.blockFailed k a = s := by
  have hquiet {f : SeqEnv → Sequencer → Sequencer × List SeqOut}
      (hf : s.isCurrent a = true → gen = (s.aud k).seq.seekGen → f (s.seqEnv k) (s.aud k).seq = ((s.aud k).seq, [])) :
      s.seqFailed k a gen f = s := by
    by_cases hcur : s.isCurrent a = true ∧ gen = (s.aud k).seq.seekGen
    · rw [State.seqFailed_current hcur.1 hcur.2]
      exact State.seqStep_nothing (hf hcur.1 hcur.2)
    · exact State.seqFailed_stale hcur f
  simp only [List.mem_cons, List.not_mem_nil, or_false] at hp
  unfold State.blockFailed
  obtain hp | hp | hp := hp <;> rw [hp] at h ⊢
  · exact hquiet fun hcur hgen => absurd ⟨hcur, hgen, .inl rfl⟩ h
  · exact hquiet fun hcur hgen => (Sequencer.scanFailed_eq _ _ _).trans
      (if_neg fun hphase => h ⟨hcur, hgen, .inr (.inl ⟨rfl, hphase⟩)⟩)
  · exact hquiet fun hcur hgen => (Sequencer.lookbackFailed_eq _ _ _).trans
      (if_neg fun hphase => h ⟨hcur, hgen, .inr (.inr ⟨rfl, hphase⟩)⟩)

end Faults

theorem noActive_channel (c : Channel) : noActive[c] = [] := by
  simp [noActive]

/-- Settles O37. -/
theorem failedEntryReadFaultsTheSequencer : Obligations.FailedEntryReadFaultsTheSequencer := by
  unfold Obligations.FailedEntryReadFaultsTheSequencer
  intro k tag gen index a c s hrunning h haud hp hends q phase faults reported u
  have hp' := hp
  simp only [List.mem_cons, List.not_mem_nil, or_false] at hp'
  have hread : a.purpose.isRead = true := by obtain hp' | hp' | hp' := hp' <;> rw [hp'] <;> rfl
  have hdark : a.purpose ≠ .darkCheckRead := fun g => by rw [g] at hp'; obtain hp' | hp' | hp' := hp' <;> exact nomatch hp'
  have honly : State.OnlyAud k (s.dropAccess tag) reported := State.onlyAud_reportAll _ k _
  have hcurrent : reported.isCurrent a = s.isCurrent a := State.reportAll_isCurrent _ k _ a
  have hseq : (reported.aud k).seq = q := State.reportAll_seq _ k _ k
  have haudk : reported.aud k = { s.aud k with writer := (reported.aud k).writer } := State.reportAll_aud _ k _ k
  have henv : reported.seqEnv k = s.seqEnv k := State.reportAll_seqEnv _ k _
  have hfaults : faults ↔ reported.isCurrent a = true ∧ (reported.aud k).seq.FaultsAt gen index a.purpose := by
    rw [hcurrent, hseq]; rfl
  have hexec := h.readFails_running hrunning haud hread hdark hends
  by_cases hf : faults
  · obtain ⟨hcur, hat⟩ := hfaults.mp hf
    rw [State.blockFailed_faults hcur hat] at hexec
    have hstep : (reported.aud k).seq.faultAt (reported.seqEnv k) index
        = ({ q.dropReads with active := noActive, state := .faulted },
          clearedScreens (s.aud k).unit.channels.captions q.active ++ [.report (.sequencerFault (32 + 32 * index))]) := by
      rw [hseq, henv]
      rfl
    have heq := State.seqStep_of_eq (s := reported) (k := k) (f := fun env q => q.faultAt env index) hstep
    have hall := State.onlyAud_seqStep reported k fun env q => q.faultAt env index
    refine ⟨_, hexec, hall.partState.trans (honly.partState.trans hrunning), hall.bindings.trans honly.bindings,
      hall.houseFault.trans honly.houseFault, hall.notice.trans honly.notice, hall.messages.trans honly.messages,
      fun j hj => (hall.others j hj).trans (honly.others j hj), fun _ => ⟨fun ch => ?_, ?_, ?_⟩, fun g => absurd hf g⟩
    · rw [State.seqStep_seq (s := reported) (k := k) (f := fun env q => q.faultAt env index) hstep]
      exact noActive_channel ch
    · rw [heq]; rfl
    · rw [State.seqStep_seq (s := reported) (k := k) (f := fun env q => q.faultAt env index) hstep, heq,
        State.aud_modAud_same, State.seqSendAll_aud, haudk]
      rfl
  · rw [State.blockFailed_spares hp fun g => hf (hfaults.mpr g)] at hexec
    exact ⟨_, hexec, honly.partState.trans hrunning, honly.bindings, honly.houseFault, honly.notice, honly.messages,
      honly.others, fun g => absurd g hf, fun _ => rfl⟩

/-! ## Text reads (R46, R47) -/

theorem Slot.fetches_iff (env : SeqEnv) (cue : CueId) (x : Slot) :
    x.fetches env cue = true ↔ x.index = cue.index ∧ x.state = .fetching ∧ cue.epoch = env.epoch := by
  simp only [Slot.fetches, Bool.and_eq_true, beq_iff_eq, and_assoc]

/-- A change of the one slot that `p` picks out. -/
theorem map_one_slot {p : Slot → Bool} {before after : List Slot} {x : Slot} (hx : p x = true)
    (hothers : ∀ y ∈ before ++ after, p y = false) (f : Slot → Slot) :
    (before ++ x :: after).map (fun y => if p y then f y else y) = before ++ f x :: after := by
  have hstays {l : List Slot} (hl : ∀ y ∈ l, p y = false) : l.map (fun y => if p y then f y else y) = l :=
    (List.map_congr_left fun y hy => if_neg (by rw [hl y hy]; decide)).trans (List.map_id' l)
  simp only [List.map_append, List.map_cons, hx, if_true, hstays fun y hy => hothers y (List.mem_append_left _ hy),
    hstays fun y hy => hothers y (List.mem_append_right _ hy)]

theorem mem_channelList (c : Channel) : c ∈ channelList := by
  revert c
  decide

theorem channelOfCue_of_only {active : Vector (List ActiveCue) 4} {cue : CueId} {ch : Channel}
    (hactive : ∃ y ∈ active[ch], y.cue = cue) (hothers : ∀ c : Channel, c ≠ ch → ∀ y ∈ active[c], y.cue ≠ cue) :
    channelOfCue active cue = some ch := by
  obtain ⟨y, hy, hcue⟩ := hactive
  have hch : (active[ch].any fun a => a.cue == cue) = true := List.any_eq_true.mpr ⟨y, hy, beq_iff_eq.mpr hcue⟩
  unfold channelOfCue
  cases hf : channelList.find? fun c => active[c].any fun a => a.cue == cue with
  | none => exact absurd hch (List.find?_eq_none.mp hf ch (mem_channelList ch))
  | some c =>
    have hany : (active[c].any fun a => a.cue == cue) = true :=
      List.find?_some (p := fun c : Channel => active[c].any fun a => a.cue == cue) hf
    obtain ⟨z, hz, hzc⟩ := List.any_eq_true.mp hany
    by_cases hc : c = ch
    · rw [hc]
    · exact absurd (beq_iff_eq.mp hzc) (hothers c hc z hz)

theorem channelOfCue_of_none {active : Vector (List ActiveCue) 4} {cue : CueId}
    (h : ∀ c : Channel, ∀ y ∈ active[c], y.cue ≠ cue) : channelOfCue active cue = none :=
  List.find?_eq_none.mpr fun c _ hany => by
    obtain ⟨y, hy, hcue⟩ := List.any_eq_true.mp hany
    exact h c y hy (beq_iff_eq.mp hcue)

theorem mapActive_channel (active : Vector (List ActiveCue) 4) (f : ActiveCue → ActiveCue) (c : Channel) :
    (mapActive active f)[c] = active[c].map f := by
  simp [mapActive]

theorem removeActive_channel (active : Vector (List ActiveCue) 4) (ch c : Channel) (cue : CueId) :
    (removeActive active ch cue)[c] = if c = ch then active[c].filter fun y => decide (y.cue ≠ cue) else active[c] := by
  unfold removeActive
  by_cases h : c = ch
  · subst h
    simp only [Fin.getElem_fin, Vector.getElem_set_self, if_true]
    refine List.filter_congr fun y _ => ?_
    by_cases hy : y.cue = cue <;> simp [hy]
  · have : ch.val ≠ c.val := fun g => h (Fin.ext g.symm)
    simp [h, this]

section Texts
variable {q : Sequencer} {env : SeqEnv} {cue : CueId}

theorem any_fetches_iff (env : SeqEnv) (cue : CueId) (window : List Slot) :
    window.any (Slot.fetches env cue) = true ↔ ∃ x ∈ window, x.fetches env cue = true := List.any_eq_true

/-- R46, R47: the text read of a staged caption changes its slot alone. -/
theorem Sequencer.text_staged {before after : List Slot} {x : Slot} (hwindow : q.window = before ++ x :: after)
    (hx : x.fetches env cue = true) (hothers : ∀ y ∈ before ++ after, y.index ≠ x.index) (text : List Byte) :
    q.textDone env cue text
        = ({ q with window := before ++ { x with state := .loaded, text := some text } :: after }, [])
      ∧ q.textFailed env cue
        = ({ q with window := before ++ { x with state := .ready, bad := true, text := none } :: after }, []) := by
  have hany : (before ++ x :: after).any (Slot.fetches env cue) = true :=
    (any_fetches_iff env cue _).mpr ⟨x, List.mem_append_right _ List.mem_cons_self, hx⟩
  have hrest : ∀ y ∈ before ++ after, y.fetches env cue = false := fun y hy =>
    Bool.eq_false_iff.mpr fun g => hothers y hy
      (((y.fetches_iff env cue).mp g).1.trans ((x.fetches_iff env cue).mp hx).1.symm)
  unfold Sequencer.textDone Sequencer.textFailed
  rw [hwindow, if_pos hany, if_pos hany, map_one_slot hx hrest fun y => { y with state := .loaded, text := some text },
    map_one_slot hx hrest fun y => { y with state := .ready, bad := true, text := none }]
  exact ⟨rfl, rfl⟩

/-- R46, R47: the text read of a cue on a screen gives it its text, or takes it from there. -/
theorem Sequencer.text_active {ch : Channel} (hstaged : ¬q.window.any (Slot.fetches env cue) = true)
    (hchannel : channelOfCue q.active cue = some ch) (text : List Byte) :
    q.textDone env cue text = ({ q with active := mapActive q.active fun a =>
        if a.cue = cue then { a with text := some text } else a }, [.textReady cue])
      ∧ q.textFailed env cue = ({ q with active := removeActive q.active ch cue, badCues := q.badCues + 1 },
        [.remove ch cue .bad]) := by
  unfold Sequencer.textDone Sequencer.textFailed
  rw [if_neg hstaged, if_neg hstaged, hchannel]
  exact ⟨rfl, rfl⟩

theorem Sequencer.text_gone (hstaged : ¬q.window.any (Slot.fetches env cue) = true)
    (hchannel : channelOfCue q.active cue = none) (text : List Byte) :
    q.textDone env cue text = (q, []) ∧ q.textFailed env cue = (q, []) := by
  unfold Sequencer.textDone Sequencer.textFailed
  rw [if_neg hstaged, if_neg hstaged, hchannel]
  exact ⟨rfl, rfl⟩

/-- The end of a text read tells the Builder alone. -/
theorem Sequencer.text_toBuilder (q : Sequencer) (env : SeqEnv) (cue : CueId) (text : List Byte) :
    (∀ o ∈ (q.textDone env cue text).2, o.toBuilder = true) ∧ ∀ o ∈ (q.textFailed env cue).2, o.toBuilder = true := by
  unfold Sequencer.textDone Sequencer.textFailed
  by_cases hstaged : q.window.any (Slot.fetches env cue) = true
  · rw [if_pos hstaged, if_pos hstaged]
    exact ⟨fun _ g => (nomatch g), fun _ g => (nomatch g)⟩
  · rw [if_neg hstaged, if_neg hstaged]
    cases channelOfCue q.active cue with
    | none => exact ⟨fun _ g => (nomatch g), fun _ g => (nomatch g)⟩
    | some c => exact ⟨fun o g => by rw [List.mem_singleton.mp g]; rfl, fun o g => by rw [List.mem_singleton.mp g]; rfl⟩

end Texts

/-- A Sequencer that tells the Builder alone leaves the other blocks and the accesses. -/
theorem State.seqStep_tells {s : State} {k : Aud} {f : SeqEnv → Sequencer → Sequencer × List SeqOut} {q : Sequencer}
    {outs : List SeqOut} (h : f (s.seqEnv k) (s.aud k).seq = (q, outs)) (htells : ∀ o ∈ outs, o.toBuilder = true) :
    (s.seqStep k f).inFlight = s.inFlight ∧ (s.seqStep k f).aud k
      = { s.aud k with seq := q, builder := ((s.seqSendAll k outs).aud k).builder } := by
  obtain ⟨hwriter, hflight⟩ := s.seqSendAll_toBuilder k htells
  refine ⟨(congrArg State.inFlight (State.seqStep_of_eq h)).trans hflight, ?_⟩
  rw [State.seqStep_of_eq h, State.aud_modAud_same, State.seqSendAll_aud, hwriter.writer]

/-- Settles O27. -/
theorem textReadLoadsItsSlot : Obligations.TextReadLoadsItsSlot := by
  unfold Obligations.TextReadLoadsItsSlot
  intro k tag gen a d cue s hrunning h haud hp hcurrent hgen q text staged faulted
  have honly : State.OnlyAud k (s.dropAccess tag) faulted := State.onlyAud_reportAll _ k _
  have hseq : (faulted.aud k).seq = q := State.reportAll_seq _ k _ k
  have henv : faulted.seqEnv k = s.seqEnv k := State.reportAll_seqEnv _ k _
  have haudk : faulted.aud k = { s.aud k with writer := (faulted.aud k).writer } := State.reportAll_aud _ k _ k
  have hstaged (x : Slot) : staged x ↔ x.fetches (s.seqEnv k) cue = true := (x.fetches_iff (s.seqEnv k) cue).symm
  have hfails : exec (.textReadComplete tag .error) s
      = .next (faulted.seqStep k fun env q => q.textFailed env cue) := by
    have hread : a.purpose.isRead = true := by rw [hp]; rfl
    have hdark : a.purpose ≠ .darkCheckRead := by rw [hp]; exact fun g => nomatch g
    rw [h.readFails_running hrunning haud hread hdark (c := .textReadComplete tag .error) ⟨h.tagged.symm, ⟨gen, cue, hp⟩, rfl⟩]
    unfold State.blockFailed
    rw [hp]
    have hcur : faulted.isCurrent a = true := (State.reportAll_isCurrent _ k _ a).trans hcurrent
    have hnow : gen = (faulted.aud k).seq.seekGen := by rw [hseq]; exact hgen
    exact congrArg Host.Outcome.next (State.seqFailed_current hcur hnow fun env q => q.textFailed env cue)
  have hbuilderk : (faulted.aud k).builder = (s.aud k).builder := (congrArg Auditorium.builder haudk :)
  let tellDone := q.textDone (s.seqEnv k) cue text
  let tellFailed := q.textFailed (s.seqEnv k) cue
  have hdone : (fun env q => Sequencer.textDone q env cue text) ((s.dropAccess tag).seqEnv k) ((s.dropAccess tag).aud k).seq
      = (tellDone.1, tellDone.2) := rfl
  have hfailed : (fun env q => Sequencer.textFailed q env cue) (faulted.seqEnv k) (faulted.aud k).seq
      = (tellFailed.1, tellFailed.2) := by
    dsimp only
    rw [henv, hseq]
  obtain ⟨htells, hfailtells⟩ := q.text_toBuilder (s.seqEnv k) cue text
  obtain ⟨hflight, htk⟩ := State.seqStep_tells (s := s.dropAccess tag) (k := k)
    (f := fun env q => q.textDone env cue text) hdone htells
  obtain ⟨hflight', huk⟩ := State.seqStep_tells (s := faulted) (k := k)
    (f := fun env q => q.textFailed env cue) hfailed hfailtells
  have hdropped (outs : List SeqOut) : (((s.dropAccess tag).seqSendAll k outs).aud k).builder
      = ((s.seqSendAll k outs).aud k).builder := State.seqSendAll_builder_congr (s := s.dropAccess tag) (t := s) rfl rfl rfl outs
  have hbuilder : ((faulted.seqSendAll k tellFailed.2).aud k).builder = ((s.seqSendAll k tellFailed.2).aud k).builder :=
    (State.reportAll_seqSendAll_builder (s.dropAccess tag) k _ _).trans (hdropped _)
  refine ⟨_, _, h.textRead_ok hrunning haud hp hcurrent hgen d, hfails, fun j hj => ⟨State.seqStep_aud_ne _ hj _,
    (State.seqStep_aud_ne _ hj _).trans (honly.others j hj)⟩, hflight, hflight',
    (State.onlyAud_seqStep _ k _).bindings, (State.onlyAud_seqStep _ k _).bindings.trans honly.bindings, ?_, ?_,
    fun before x after hwindow hx hothers => ?_, fun ch hnone hactive hothers => ?_, fun hnone hgone => ?_⟩
  · rw [htk]; rfl
  · rw [huk, haudk]
  · obtain ⟨h1, h2⟩ := Sequencer.text_staged hwindow ((hstaged x).mp hx) hothers text
    rw [htk, huk]
    simp only [tellDone, tellFailed, h1, h2]
    exact ⟨trivial, trivial, rfl, hbuilderk⟩
  · have hany : ¬q.window.any (Slot.fetches (s.seqEnv k) cue) = true := fun g => by
      obtain ⟨x, hx, hf⟩ := (any_fetches_iff _ _ _).mp g
      exact hnone x hx ((hstaged x).mpr hf)
    obtain ⟨h1, h2⟩ := Sequencer.text_active hany (channelOfCue_of_only hactive hothers) text
    rw [htk, huk, hbuilder, hdropped tellDone.2]
    simp only [tellDone, tellFailed, h1, h2]
    refine ⟨trivial, fun c => mapActive_channel _ _ c, trivial, trivial, fun c => ?_, trivial⟩
    rw [removeActive_channel]
    by_cases hc : c = ch
    · exact if_pos hc
    · exact (if_neg hc).trans (List.filter_eq_self.mpr fun y hy => decide_eq_true (hothers c hc y hy)).symm
  · have hany : ¬q.window.any (Slot.fetches (s.seqEnv k) cue) = true := fun g => by
      obtain ⟨x, hx, hf⟩ := (any_fetches_iff _ _ _).mp g
      exact hnone x hx ((hstaged x).mpr hf)
    obtain ⟨h1, h2⟩ := Sequencer.text_gone hany (channelOfCue_of_none hgone) text
    rw [htk, huk]
    simp only [tellDone, tellFailed, h1, h2]
    exact ⟨rfl, trivial, hbuilderk⟩

end Sys2Proof.Machine
end

section
/-! SUPPORT. Block reads of a narration ring (R79, R141, R143). -/

namespace Sys2Proof.Machine

/-! ## Failed blocks at the head (R79) -/

/-- Failed blocks at the head are taken, each counted. -/
theorem dropFailed_eq (l : List RingBlock) (take : Word) :
    dropFailed l take = (l.dropWhile fun y => decide (y.state = .failed),
      take + BitVec.ofNat 32 (l.length - (l.dropWhile fun y => decide (y.state = .failed)).length)) := by
  induction l generalizing take with
  | nil => simp [dropFailed]
  | cons b rest ih =>
    have hle := (List.dropWhile_sublist (l := rest) fun y => decide (y.state = .failed)).length_le
    cases hb : b.state with
    | failed =>
      have hcount : (b :: rest).length - (rest.dropWhile fun y => decide (y.state = .failed)).length
          = 1 + (rest.length - (rest.dropWhile fun y => decide (y.state = .failed)).length) := by
        simp only [List.length_cons]; omega
      rw [List.dropWhile_cons_of_pos (by simp [hb]), hcount, BitVec.ofNat_add, ← BitVec.add_assoc]
      simp only [dropFailed, hb, ih]
      rfl
    | reading => simp [dropFailed, hb]
    | held x => simp [dropFailed, hb]

theorem dropFailed_of_head {l : List RingBlock} (h : ∀ y ∈ l.head?, y.state ≠ .failed) (take : Word) :
    dropFailed l take = (l, take) := by
  cases l with
  | nil => rfl
  | cons b rest =>
    rw [dropFailed_eq, List.dropWhile_cons_of_neg (by simpa using h b rfl), Nat.sub_self]
    simp

/-! ## A block takes its place (R79) -/

section Places
variable {r : Ring} {number : Word} {before after : List RingBlock}
  (hblocks : r.blocks = before ++ { number := number, state := .reading } :: after)
  (hothers : ∀ y ∈ before ++ after, y.number ≠ number)
include hblocks hothers

theorem Ring.blockDone_eq (st : BlockState) :
    r.blockDone number st = Ring.settle { r with blocks := before ++ { number := number, state := st } :: after } := by
  have hstays {l : List RingBlock} (hl : ∀ y ∈ l, y.number ≠ number) :
      (l.map fun b => if b.number = number ∧ b.state = .reading then { b with state := st } else b) = l :=
    (List.map_congr_left fun y hy => if_neg fun g => hl y hy g.1).trans (List.map_id' l)
  unfold Ring.blockDone
  rw [hblocks, List.map_append, List.map_cons, hstays fun y hy => hothers y (List.mem_append_left _ hy),
    hstays fun y hy => hothers y (List.mem_append_right _ hy)]
  simp only [and_self, if_true]

/-- A block that is not the oldest failed one takes its place, and nothing is taken. -/
theorem Ring.blockDone_stays {st : BlockState} (hbefore : ∀ y ∈ before, y.state ≠ .failed)
    (hst : before = [] → st ≠ .failed) :
    r.blockDone number st = { r with blocks := before ++ { number := number, state := st } :: after } := by
  rw [Ring.blockDone_eq hblocks hothers]
  unfold Ring.settle
  rw [dropFailed_of_head]
  intro y hy
  cases hb : before with
  | nil =>
    simp only [hb, List.nil_append, List.head?_cons, Option.mem_def, Option.some.injEq] at hy
    rw [← hy]
    exact hst hb
  | cons b rest =>
    simp only [hb, List.cons_append, List.head?_cons, Option.mem_def, Option.some.injEq] at hy
    exact hbefore y (by rw [hb, ← hy]; exact List.mem_cons_self)

/-- A failed block that is the oldest is taken at once, with the failed ones behind it. -/
theorem Ring.blockDone_taken (hbefore : before = []) :
    r.blockDone number .failed = { r with
      blocks := after.dropWhile fun y => decide (y.state = .failed)
      take := r.take + BitVec.ofNat 32
        (1 + after.length - (after.dropWhile fun y => decide (y.state = .failed)).length) } := by
  rw [Ring.blockDone_eq hblocks hothers, hbefore]
  unfold Ring.settle
  simp only [List.nil_append, dropFailed_eq]
  rw [List.dropWhile_cons_of_pos (by rfl), List.length_cons, Nat.add_comm after.length 1]

end Places

theorem Mixer.ring_modRing_same (m : Mixer) (name : RingName) (f : Ring → Ring) :
    (m.modRing name f).ring name = f (m.ring name) := by
  cases name <;> rfl

theorem Mixer.ring_modRing_ne (m : Mixer) {name other : RingName} (h : other ≠ name) (f : Ring → Ring) :
    (m.modRing name f).ring other = m.ring other := by
  unfold Mixer.modRing Mixer.setRing
  cases name with
  | a => cases other with
    | a => exact absurd rfl h
    | b => rfl
    | bed => rfl
  | b => cases other with
    | a => rfl
    | b => exact absurd rfl h
    | bed => rfl
  | bed => cases other with
    | a => rfl
    | b => rfl
    | bed => exact absurd rfl h

/-- A change of a ring leaves the rest of the mixer. -/
theorem Mixer.modRing_rest (m : Mixer) (name : RingName) (f : Ring → Ring) :
    m.modRing name f = { m with
      ringA := (m.modRing name f).ringA, ringB := (m.modRing name f).ringB, bed := (m.modRing name f).bed } := by
  cases name <;> rfl

/-! ## The read ends -/

section Reads
variable {s : State} {k : Aud} {tag gen : Nat} {name : RingName} {number : Word} {a : Access}
  (hrunning : s.partState = .running) (h : s.InFlightAs tag a) (haud : a.aud = some k)
  (hp : a.purpose = .blockRead name gen number)
include hrunning h haud hp

theorem State.InFlightAs.blockRead_ok (d : List Byte) : exec (.blockReadComplete tag (.ok d)) s
    = .next (if s.isCurrent a then (s.dropAccess tag).blockRead k name gen number (.held (parseBlock (a.received d)))
        else s.dropAccess tag) := by
  refine congrArg Host.Outcome.next ((h.endRead_ok (by rw [hp]; rfl) d).trans ?_)
  rw [State.endAccess_running (s := s.dropAccess tag) hrunning]
  unfold State.readDone
  rw [haud]
  simp only [hp]
  rfl

theorem State.InFlightAs.blockRead_fails {c : Instr} (hc : s.Ends a c true) :
    exec c s = .next (if s.isCurrent a then
        ((s.dropAccess tag).reportAll k [.regionFault a.role a.selector .memory a.offset]).blockRead k name gen number
          .failed
      else (s.dropAccess tag).reportAll k [.regionFault a.role a.selector .memory a.offset]) := by
  rw [h.readFails_running hrunning haud (by rw [hp]; rfl) (by rw [hp]; exact fun g => nomatch g) hc]
  unfold State.blockFailed
  simp only [hp]
  rw [State.reportAll_isCurrent]
  rfl

end Reads

theorem State.blockRead_current {s : State} {k : Aud} {name : RingName} {gen : Nat}
    (hgen : gen = ((s.aud k).mixer.ring name).fetchGen) (number : Word) (st : BlockState) :
    s.blockRead k name gen number st
      = s.modAud k fun a => { a with mixer := a.mixer.modRing name fun r => r.blockDone number st } := if_pos hgen

theorem State.blockRead_stale {s : State} {k : Aud} {name : RingName} {gen : Nat}
    (hgen : gen ≠ ((s.aud k).mixer.ring name).fetchGen) (number : Word) (st : BlockState) :
    s.blockRead k name gen number st = s := if_neg hgen

theorem State.reportAll_mixer (s : State) (k : Aud) (l : List Report) (j : Aud) :
    ((s.reportAll k l).aud j).mixer = (s.aud j).mixer := (congrArg Auditorium.mixer (s.reportAll_aud k l j) :)

/-- Settles O30. -/
theorem blockReadHoldsTheBlockInPlace : Obligations.BlockReadHoldsTheBlockInPlace := by
  unfold Obligations.BlockReadHoldsTheBlockInPlace
  refine ⟨?_, ?_, ?_⟩
  · intro k tag gen name number a d before after s hrunning h haud hp hcurrent hgen hblocks hothers hbefore
    let st := BlockState.held (parseBlock (a.received d))
    have hexec := h.blockRead_ok hrunning haud hp d
    rw [if_pos hcurrent, State.blockRead_current (s := s.dropAccess tag) hgen] at hexec
    have hdone := Ring.blockDone_stays hblocks hothers (st := st) hbefore fun _ g => nomatch g
    have hring (t : State) (ht : t = (s.dropAccess tag).modAud k fun a =>
        { a with mixer := a.mixer.modRing name fun r => r.blockDone number st }) :
        (t.aud k).mixer.ring name
          = { (s.aud k).mixer.ring name with blocks := before ++ { number := number, state := st } :: after } := by
      rw [ht, State.aud_modAud_same]
      exact (Mixer.ring_modRing_same _ name _).trans hdone
    refine ⟨_, hexec, ?_, ?_, ?_, rfl, ?_, ?_, fun j hj => State.aud_modAud_ne _ _ hj⟩
    · rw [hring _ rfl]
    · rw [hring _ rfl]
    · rw [hring _ rfl]
    · rw [State.aud_modAud_same]; rfl
    · rw [State.aud_modAud_same]; rfl
  · intro k tag gen name number a c before after s hrunning h haud hp hcurrent hends hgen hblocks hothers hbefore r left
      faulted
    have honly : State.OnlyAud k (s.dropAccess tag) faulted := State.onlyAud_reportAll _ k _
    have haudk : faulted.aud k = { s.aud k with writer := (faulted.aud k).writer } := State.reportAll_aud _ k _ k
    have hmixer : (faulted.aud k).mixer = (s.aud k).mixer := State.reportAll_mixer _ k _ k
    have hexec := h.blockRead_fails hrunning haud hp hends
    rw [if_pos hcurrent, State.blockRead_current (s := faulted) (by rw [hmixer]; exact hgen)] at hexec
    refine ⟨_, hexec, fun j hj => (State.aud_modAud_ne _ _ hj).trans (honly.others j hj), rfl, honly.bindings,
      honly.houseFault, honly.notice, ?_, fun other hother => ?_, ?_, fun hsome => ?_, fun hnone => ?_⟩
    · rw [State.aud_modAud_same, haudk]
    · rw [State.aud_modAud_same, ← hmixer]
      exact Mixer.ring_modRing_ne _ hother _
    · rw [State.aud_modAud_same, ← hmixer]
      exact Mixer.modRing_rest (faulted.aud k).mixer name fun r => r.blockDone number .failed
    · rw [State.aud_modAud_same]
      refine (Mixer.ring_modRing_same _ name _).trans ?_
      rw [hmixer]
      exact Ring.blockDone_stays hblocks hothers hbefore fun g => absurd g hsome
    · rw [State.aud_modAud_same]
      refine (Mixer.ring_modRing_same _ name _).trans ?_
      rw [hmixer]
      exact Ring.blockDone_taken hblocks hothers hnone
  · intro k tag gen name number a d c s hrunning h haud hp hstale
    refine ⟨(h.blockRead_ok hrunning haud hp d).trans ?_, fun hends => (h.blockRead_fails hrunning haud hp hends).trans ?_⟩
    · by_cases hcurrent : s.isCurrent a = true
      · rw [if_pos hcurrent, State.blockRead_stale (s := s.dropAccess tag)
          (hstale.resolve_left fun g => by rw [g] at hcurrent; exact nomatch hcurrent)]
        rfl
      · rw [if_neg hcurrent]
        rfl
    · by_cases hcurrent : s.isCurrent a = true
      · have hgen := hstale.resolve_left fun g => by rw [g] at hcurrent; exact nomatch hcurrent
        rw [if_pos hcurrent, State.blockRead_stale]
        rw [State.reportAll_mixer]
        exact hgen
      · rw [if_neg hcurrent]

end Sys2Proof.Machine
end

section
/-! SUPPORT. Re-entry (R69 to R71): the examination of the lookback, the candidates in their order, and their placing. -/

namespace Sys2Proof.Machine

/-! ## The order of candidates (R70, R71) -/

/-- Older start first, of one start the lower index. -/
def Candidate.Precedes (x y : Candidate) : Prop :=
  x.start.toNat < y.start.toNat ∨ (x.start.toNat = y.start.toNat ∧ x.index ≤ y.index)

theorem Candidate.Precedes.trans {x y z : Candidate} (h : x.Precedes y) (g : y.Precedes z) : x.Precedes z := by
  unfold Candidate.Precedes at *
  omega

theorem Candidate.precedes_refl (x : Candidate) : x.Precedes x := .inr ⟨rfl, Nat.le_refl _⟩

theorem Candidate.precedes_of_before {x y : Candidate} (h : x.before y = true) : x.Precedes y := by
  simp only [Candidate.before, Bool.or_eq_true, Bool.and_eq_true, decide_eq_true_eq, beq_iff_eq] at h
  unfold Candidate.Precedes
  omega

theorem Candidate.precedes_of_not_before {x y : Candidate} (h : ¬x.before y = true) : y.Precedes x := by
  simp only [Candidate.before, Bool.or_eq_true, Bool.and_eq_true, decide_eq_true_eq, beq_iff_eq] at h
  unfold Candidate.Precedes
  omega

theorem insertCandidate_perm (c : Candidate) (l : List Candidate) : (insertCandidate c l).Perm (c :: l) := by
  induction l with
  | nil => exact .refl _
  | cons x rest ih =>
    unfold insertCandidate
    split
    · exact .refl _
    · exact (ih.cons x).trans (.swap c x rest)

theorem insertCandidate_sorted {c : Candidate} {l : List Candidate} (h : l.Pairwise Candidate.Precedes) :
    (insertCandidate c l).Pairwise Candidate.Precedes := by
  induction l with
  | nil => exact List.pairwise_singleton _ _
  | cons x rest ih =>
    obtain ⟨hx, hrest⟩ := List.pairwise_cons.mp h
    unfold insertCandidate
    split
    · next hbefore =>
      have hcx := Candidate.precedes_of_before hbefore
      exact List.pairwise_cons.mpr ⟨fun y hy => (List.mem_cons.mp hy).elim (fun e => e ▸ hcx) fun g => hcx.trans (hx y g), h⟩
    · next hafter =>
      refine List.pairwise_cons.mpr ⟨fun y hy => ?_, ih hrest⟩
      obtain rfl | hy := List.mem_cons.mp ((insertCandidate_perm c rest).mem_iff.mp hy)
      · exact Candidate.precedes_of_not_before hafter
      · exact hx y hy

/-- The candidates in their order. -/
theorem sortCandidates (l : List Candidate) :
    (l.foldr insertCandidate []).Perm l ∧ (l.foldr insertCandidate []).Pairwise Candidate.Precedes := by
  induction l with
  | nil => exact ⟨.refl _, .nil⟩
  | cons c rest ih => exact ⟨(insertCandidate_perm c _).trans (ih.1.cons c), insertCandidate_sorted ih.2⟩

/-- The candidates of channel `c` in `l`. -/
def ofChannel (c : Channel) (l : List Candidate) : List Candidate := l.filter fun x => x.channel = c

/-- A channel's candidate that comes before all the others. -/
def Candidate.Least (l : List Candidate) (x : Candidate) : Prop := x ∈ l ∧ ∀ y ∈ l, x.Precedes y

theorem channelCandidates_perm (c : Channel) (l : List Candidate) : (channelCandidates c l).Perm (ofChannel c l) :=
  (sortCandidates _).1

theorem channelCandidates_head {c : Channel} {l rest : List Candidate} {smallest : Candidate}
    (h : channelCandidates c l = smallest :: rest) :
    smallest.Least (ofChannel c l) ∧ (ofChannel c l).length = rest.length + 1 := by
  have hperm := channelCandidates_perm c l
  have hsorted : (channelCandidates c l).Pairwise Candidate.Precedes := (sortCandidates _).2
  rw [h] at hperm hsorted
  refine ⟨⟨hperm.mem_iff.mp List.mem_cons_self, fun y hy => ?_⟩, hperm.length_eq.symm⟩
  obtain rfl | hy := List.mem_cons.mp (hperm.mem_iff.mpr hy)
  · exact y.precedes_refl
  · exact (List.pairwise_cons.mp hsorted).1 y hy

theorem channelCandidates_nil {c : Channel} {l : List Candidate} (h : channelCandidates c l = []) :
    ofChannel c l = [] := (h ▸ channelCandidates_perm c l).nil_eq.symm

/-- R70: a newcomer is too old for a channel that holds four later ones. -/
theorem tooOld_iff (c : Candidate) (l : List Candidate) : tooOld c l = true
    ↔ 4 ≤ (ofChannel c.channel l).length
      ∧ ∃ x : Candidate, x.Least (ofChannel c.channel l) ∧ c.start.toNat ≤ x.start.toNat := by
  unfold tooOld
  cases h : channelCandidates c.channel l with
  | nil => simp [channelCandidates_nil h]
  | cons smallest rest =>
    obtain ⟨hleast, hlength⟩ := channelCandidates_head h
    simp only [Bool.and_eq_true, decide_eq_true_eq]
    refine and_congr (by omega) ⟨fun g => ⟨smallest, hleast, g⟩, fun ⟨x, hx, g⟩ => ?_⟩
    have := hx.2 smallest hleast.1
    unfold Candidate.Precedes at this
    omega

/-- Of candidates with one index each only one is the least. -/
theorem Candidate.Least.unique {l : List Candidate} (hindices : (l.map Candidate.index).Nodup) {x y : Candidate}
    (hx : x.Least l) (hy : y.Least l) : x = y := by
  have h := hx.2 y hy.1
  have g := hy.2 x hx.1
  unfold Candidate.Precedes at h g
  exact List.inj_on_of_nodup_map hindices hx.1 hy.1 (by omega)

/-- R70: a newcomer joins, and the least of four in its channel leaves. -/
theorem joinCandidates_eq {l : List Candidate} (hindices : (l.map Candidate.index).Nodup) (c : Candidate)
    {p : Candidate → Bool}
    (hp : ∀ x, p x = true ↔ ¬(4 ≤ (ofChannel c.channel l).length ∧ x.Least (ofChannel c.channel l))) :
    joinCandidates c l = l.filter p ++ [c] := by
  have hall (hfew : ¬4 ≤ (ofChannel c.channel l).length) : l.filter p = l :=
    List.filter_eq_self.mpr fun x _ => (hp x).mpr fun g => hfew g.1
  have hmine : ((ofChannel c.channel l).map Candidate.index).Nodup :=
    hindices.sublist (List.filter_sublist.map _)
  unfold joinCandidates
  cases h : channelCandidates c.channel l with
  | nil => rw [hall (by rw [channelCandidates_nil h]; decide)]
  | cons smallest rest =>
    obtain ⟨hleast, hlength⟩ := channelCandidates_head h
    dsimp only
    by_cases hfour : 3 ≤ rest.length
    · rw [if_pos hfour]
      refine congrArg (· ++ [c]) (List.filter_congr fun x _ => ?_)
      rw [Bool.eq_iff_iff, hp x]
      simp only [Bool.not_eq_true', beq_eq_false_iff_ne, ne_eq]
      exact not_congr ⟨fun g => ⟨by omega, g ▸ hleast⟩, fun g => g.2.unique hmine hleast⟩
    · rw [if_neg hfour, hall (by omega)]

/-! ## The examination (R70) -/

/-- The seek with the stopped channels and the candidates of `r`. -/
def Seek.carrying (sk : Seek) (r : Chosen) : Seek := { sk with stopped := r.stopped, candidates := r.candidates }

theorem payloadPasses_iff (env : SeqEnv) (e : CueEntry) : payloadPasses env e = true
    ↔ e.textLength = 0 ∨ ∃ p ∈ env.payload, e.payloadOffset.toNat + e.textLength - 1 ≤ p.2.toNat := by
  unfold payloadPasses CueEntry.payloadFits
  cases env.payload <;> simp

theorem payloadFault_eq (env : SeqEnv) (e : CueEntry) : payloadFault env e
    = env.payload.toList.map fun p => .report (.regionFault .payload p.1 .limit e.payloadOffset.toNat) := by
  unfold payloadFault
  cases env.payload <;> rfl

/-- R70: one entry of the lookback. -/
theorem examineLookback_eq (env : SeqEnv) (sk : Seek) (index : Nat) (e : CueEntry) (r : Chosen)
    (hindices : (r.candidates.map Candidate.index).Nodup) :
    let after := Chosen.next env.mask env.payload sk.target r index e
    ∃ outs, after.sent = r.sent ++ outs ∧ examineLookback env (sk.carrying r) index e = (sk.carrying after, outs)
      ∧ (after.candidates.map Candidate.index).Sublist (r.candidates.map Candidate.index ++ [index]) := by
  intro after
  have hkept : (r.candidates.map Candidate.index).Sublist (r.candidates.map Candidate.index ++ [index]) :=
    List.sublist_append_left _ _
  have hpassed : (e.retracted || e.isBad || !captionEnabled env.mask e.channelOf
        || (sk.carrying r).stopped.contains e.channelOf) = true
      ↔ (e.retracted = true ∨ (e.kind ≠ 1#8 ∧ e.kind ≠ 2#8) ∨ 3 < e.channel.toNat ∨ e.finish.toNat ≤ e.start.toNat
        ∨ env.mask.getLsbD e.channelOf.val = false ∨ e.channelOf ∈ r.stopped) := by
    simp only [Bool.or_eq_true, e.isBad_iff, Bool.not_eq_true', List.contains_iff_mem, or_assoc, captionEnabled,
      Seek.carrying]
  unfold examineLookback
  by_cases hout : (e.retracted || e.isBad || !captionEnabled env.mask e.channelOf
      || (sk.carrying r).stopped.contains e.channelOf) = true
  · have hafter : after = r := if_pos (hpassed.mp hout)
    rw [if_pos hout, hafter]
    exact ⟨[], (List.append_nil _).symm, rfl, hkept⟩
  rw [if_neg hout]
  have hchosen : after = _ := if_neg (mt hpassed.mpr hout)
  by_cases hclear : e.kind = 2#8
  · have hkind : (e.kind == 2) = true := beq_iff_eq.mpr hclear
    rw [if_pos hkind]
    have hchosen := hchosen.trans (if_pos hclear)
    by_cases hstart : e.start.toNat ≤ sk.target.toNat
    · rw [hchosen.trans (if_pos hstart)]
      exact ⟨[], (List.append_nil _).symm, if_pos hstart, hkept⟩
    · rw [hchosen.trans (if_neg hstart)]
      exact ⟨[], (List.append_nil _).symm, if_neg hstart, hkept⟩
  have hkind : ¬(e.kind == 2) = true := mt beq_iff_eq.mp hclear
  rw [if_neg hkind]
  have hchosen := hchosen.trans (if_neg hclear)
  by_cases hlate : sk.target.toNat < e.start.toNat ∨ e.finish.toNat ≤ sk.target.toNat
  · rw [hchosen.trans (if_pos hlate)]
    have : (!(decide (e.start.toNat ≤ sk.target.toNat) && decide (sk.target.toNat < e.finish.toNat))) = true := by
      simp only [Bool.not_eq_true', Bool.and_eq_false_iff, decide_eq_false_iff_not]
      omega
    exact ⟨[], (List.append_nil _).symm, if_pos this, hkept⟩
  have hnow : ¬(!(decide (e.start.toNat ≤ sk.target.toNat) && decide (sk.target.toNat < e.finish.toNat))) = true := by
    simp only [Bool.not_eq_true', Bool.and_eq_false_iff, decide_eq_false_iff_not]
    omega
  have hchosen := hchosen.trans (if_neg hlate)
  by_cases hold : tooOld (candidateOf index e) r.candidates = true
  · obtain ⟨hfour, x, ⟨hx, hleast⟩, hstart⟩ := (tooOld_iff _ _).mp hold
    rw [hchosen.trans (if_pos ⟨hfour, x, hx, hleast, hstart⟩)]
    exact ⟨[], (List.append_nil _).symm, (if_neg hnow).trans (if_pos hold), hkept⟩
  have hchosen := hchosen.trans (if_neg fun ⟨hfour, x, hx, hleast, hstart⟩ =>
    hold ((tooOld_iff _ _).mpr ⟨hfour, x, ⟨hx, hleast⟩, hstart⟩))
  by_cases hpass : payloadPasses env e = true
  · have hjoin := hchosen.trans (if_pos ((payloadPasses_iff env e).mp hpass))
    rw [hjoin]
    refine ⟨[], (List.append_nil _).symm, ((if_neg hnow).trans ((if_neg hold).trans (if_pos hpass))).trans ?_, ?_⟩
    · refine congrArg (fun l => (({ sk.carrying r with candidates := l } : Seek), ([] : List SeqOut)))
        (joinCandidates_eq hindices (candidateOf index e) fun x => ?_)
      exact decide_eq_true_iff
    · rw [List.map_append]
      exact (List.filter_sublist.map _).append (.refl _)
  · rw [hchosen.trans (if_neg (mt (payloadPasses_iff env e).mpr hpass))]
    refine ⟨_, rfl, ((if_neg hnow).trans ((if_neg hold).trans (if_neg hpass))).trans ?_, hkept⟩
    rw [payloadFault_eq]
    rfl

/-- R69, R70: the examination of a lookback that is held to its end completes re-entry. -/
theorem Sequencer.lookbackRun_held (q : Sequencer) (env : SeqEnv) (sk : Seek) (l : List (Nat × CueEntry)) (r : Chosen)
    (hindices : (r.candidates.map Candidate.index ++ l.map Prod.fst).Nodup) :
    let after := l.foldl (fun r x => Chosen.next env.mask env.payload sk.target r x.1 x.2) r
    ∃ outs, after.sent = r.sent ++ outs
      ∧ q.lookbackRun env (l.map fun x => { index := x.1, entry := some x.2 }) (sk.carrying r)
        = ((q.completeReentry env { sk.carrying after with lookback := some [] }).1,
          outs ++ (q.completeReentry env { sk.carrying after with lookback := some [] }).2) := by
  induction l generalizing r with
  | nil => exact ⟨[], (List.append_nil _).symm, rfl⟩
  | cons x rest ih =>
    have hnow : (r.candidates.map Candidate.index).Nodup := hindices.sublist (List.sublist_append_left _ _)
    obtain ⟨one, hsent, hone, hsub⟩ := examineLookback_eq env sk x.1 x.2 r hnow
    obtain ⟨more, hmore, hrun⟩ := ih (Chosen.next env.mask env.payload sk.target r x.1 x.2)
      (hindices.sublist (by
        rw [List.map_cons, ← List.singleton_append (l := rest.map Prod.fst), ← List.append_assoc]
        exact hsub.append (.refl _)))
    refine ⟨one ++ more, ?_, ?_⟩
    · rw [List.foldl_cons, hmore, hsent, List.append_assoc]
    · simp only [List.map_cons, Sequencer.lookbackRun, hone, hrun, List.foldl_cons, List.append_assoc]

/-! ## Placing (R71) -/

/-- Each channel's candidates come onto its screen, in order. -/
theorem placeCandidates_channel (env : SeqEnv) (l : List Candidate) (active : Vector (List ActiveCue) 4) (c : Channel) :
    (placeCandidates env l active)[c] = active[c] ++ (ofChannel c l).map (Candidate.onScreen env.epoch) := by
  induction l generalizing active with
  | nil => exact (List.append_nil _).symm
  | cons x rest ih =>
    refine (ih _).trans ?_
    unfold ofChannel
    by_cases hc : x.channel = c
    · subst hc
      rw [List.filter_cons_of_pos (by simp)]
      simp only [Fin.getElem_fin, Vector.getElem_set_self, List.map_cons, List.append_assoc, List.singleton_append]
      rfl
    · have : x.channel.val ≠ c.val := fun g => hc (Fin.ext g)
      rw [List.filter_cons_of_neg (by simpa using hc)]
      simp only [Fin.getElem_fin, Vector.getElem_set_ne _ _ this]

/-- Settles O29. -/
theorem lastLookbackPlacesTheCandidates : Obligations.LastLookbackPlacesTheCandidates := by
  unfold Obligations.LastLookbackPlacesTheCandidates
  intro k tag gen index a d sk held s hrunning h haud hp hcurrent hgen hseek hphase hlookback hbounded hwindow q env
    chosen
  let e := parseEntry (a.received d)
  let placed := chosen.candidates.foldr insertCandidate []
  obtain ⟨hperm, hsorted⟩ := sortCandidates chosen.candidates
  have hindices : (sk.candidates.map Candidate.index ++ (((index, e) :: held).map Prod.fst)).Nodup := by
    have := hbounded.distinct sk _ hseek hlookback
    simpa [Function.comp_def] using this
  have hheld : holdItem index e ({ index := index, entry := none } :: held.map fun x => { index := x.1, entry := some x.2 })
      = ((index, e) :: held).map fun x => { index := x.1, entry := some x.2 } := by
    simp [holdItem, Function.comp_def]
  obtain ⟨outs, hsent, hrun⟩ := Sequencer.lookbackRun_held q env sk ((index, e) :: held)
    { stopped := sk.stopped, candidates := sk.candidates, sent := [] } hindices
  have hdone : q.lookbackDone env index e
      = ((q.completeReentry env { sk.carrying chosen with lookback := some [] }).1,
        outs ++ (q.completeReentry env { sk.carrying chosen with lookback := some [] }).2) := by
    unfold Sequencer.lookbackDone
    rw [hseek]
    simp only [hphase, hlookback, hheld]
    exact hrun
  have hstep := State.seqStep_of_eq (s := s.dropAccess tag) (k := k)
    (f := fun env q => q.lookbackDone env index e) hdone
  have hseq := State.seqStep_seq (s := s.dropAccess tag) (k := k)
    (f := fun env q => q.lookbackDone env index e) hdone
  refine ⟨_, placed, h.lookbackRead_ok hrunning haud hp hcurrent hgen d, hperm, hsorted, ?_⟩
  have hempty : q.cursor + q.window.length = q.cursor := by rw [show q.window = [] from hwindow]; rfl
  have hall : (q.completeReentry env { sk.carrying chosen with lookback := some [] }).1.window
      = ((List.range (min (q.cursor + 16) q.listCount)).drop q.cursor).map newSlot := by
    simp only [Sequencer.completeReentry, Sequencer.refill, Sequencer.missing]
    rw [hempty, show q.window = [] from hwindow, List.nil_append]
  have hsends : outs ++ (q.completeReentry env { sk.carrying chosen with lookback := some [] }).2
      = chosen.sent ++ placed.flatMap (candidateOuts env gen) ++ [.report (.seekDone q.cursor placed.length)]
        ++ ((List.range (min (q.cursor + 16) q.listCount)).drop q.cursor).map fun i => .readEntry gen i := by
    simp only [Sequencer.completeReentry, Sequencer.refill, Sequencer.missing]
    rw [hempty, hgen, show chosen.sent = outs from hsent]
    simp only [List.append_assoc]
    rfl
  have hplaced (c : Channel) : (q.completeReentry env { sk.carrying chosen with lookback := some [] }).1.active[c]
      = (placed.filter fun x => x.channel = c).map (Candidate.onScreen env.epoch) := by
    refine (placeCandidates_channel env placed q.active c).trans ?_
    rw [show q.active[c] = [] from hbounded.dark sk hseek c]
    rfl
  have htold (outs' : List SeqOut) (h' : outs ++ (q.completeReentry env
      { sk.carrying chosen with lookback := some [] }).2 = outs') :
      let t := (s.dropAccess tag).seqStep k fun env q => q.lookbackDone env index e
      let u := (s.dropAccess tag).seqSendAll k outs'
      (t.aud k).builder = (u.aud k).builder ∧ (t.aud k).writer = (u.aud k).writer ∧ t.inFlight = u.inFlight := by
    intro t u
    have ht : t = u.modAud k _ := h' ▸ hstep
    rw [ht, State.aud_modAud_same]
    exact ⟨rfl, rfl, rfl⟩
  refine ⟨fun c => ?_, ?_⟩
  · rw [hseq]; exact hplaced c
  rw [hseq]
  refine ⟨rfl, rfl, rfl, rfl, rfl, rfl, rfl, ?_, fun y hy => ?_, htold _ (hsends.trans ?_)⟩
  · rw [hall, List.map_map]
    exact List.map_id _
  · rw [hall] at hy
    obtain ⟨i, _, rfl⟩ := List.mem_map.mp hy
    rfl
  · rfl

end Sys2Proof.Machine
end

section
/-! SUPPORT. Accesses of the show record that end in a memory error (R143, R148; log entries 7, 20). -/

namespace Sys2Proof.Machine

/-! ## A write that fails is seen by no read (log entry 7) -/

/-- `t` is `s` but for the bytes of the write `tag` that accesses in flight must see. -/
structure State.Veiled (tag : Nat) (s t : State) : Prop where
  rest : t = { s with inFlight := t.inFlight }
  flight : t.inFlight.map (Access.unseeing tag) = s.inFlight.map (Access.unseeing tag)

section Veiled
variable {tag : Nat} {s t : State} (h : State.Veiled tag s t)

theorem State.Veiled.refl (tag : Nat) (s : State) : State.Veiled tag s s := ⟨rfl, rfl⟩

theorem State.veiled_withdraw (tag : Nat) (s : State) : State.Veiled tag s (s.withdraw tag) :=
  ⟨rfl, Access.unseeing_withdrawn tag s.inFlight⟩

include h

theorem State.Veiled.aud (k : Aud) : t.aud k = s.aud k := by rw [h.rest]; rfl

theorem State.Veiled.bindings : t.bindings = s.bindings := by rw [h.rest]

theorem State.Veiled.isCurrent (a : Access) : t.isCurrent a = s.isCurrent a := State.isCurrent_congr h.bindings a

theorem State.Veiled.length : t.inFlight.length = s.inFlight.length := by
  have := congrArg List.length h.flight
  simpa using this

theorem State.Veiled.forwardsFor (address : Quad) (length : Nat) : t.forwardsFor address length = s.forwardsFor address length := by
  have hall (l : List Access) : (l.map (Access.unseeing tag)).flatMap (fun w => w.seenBy address length)
      = l.flatMap fun w => w.seenBy address length := by
    rw [List.flatMap_map]
    rfl
  unfold State.forwardsFor
  rw [← hall, h.flight, hall]

theorem State.Veiled.issue (a : Access) : State.Veiled tag (s.issue a) (t.issue a) where
  rest := by rw [h.rest]; rfl
  flight := by
    simp only [State.issue, List.map_append, h.flight]
    rw [h.rest]

theorem State.Veiled.modAud (k : Aud) (f : Auditorium → Auditorium) :
    State.Veiled tag (s.modAud k f) (t.modAud k f) where
  rest := by rw [h.rest]; rfl
  flight := h.flight

theorem State.Veiled.modWriter (k : Aud) (f : Writer → Writer) :
    State.Veiled tag (s.modWriter k f) (t.modWriter k f) := h.modAud k fun a => { a with writer := f a.writer }

theorem State.Veiled.throughBinding (b : Binding) (offset length : Nat) (data : List Byte) (purpose : Purpose) :
    State.Veiled tag (s.throughBinding b offset length data purpose) (t.throughBinding b offset length data purpose) := by
  unfold State.throughBinding
  simp only [h.forwardsFor]
  exact h.issue _

theorem State.Veiled.launch (k : Aud) (role : Role) (offset length : Nat) (data : List Byte) (purpose : Purpose) :
    State.Veiled tag (s.launch k role offset length data purpose).1 (t.launch k role offset length data purpose).1
      ∧ (t.launch k role offset length data purpose).2 = (s.launch k role offset length data purpose).2 := by
  have hbinding : t.binding k role = s.binding k role := State.binding_congr h.bindings k role
  unfold State.launch
  rw [hbinding]
  cases s.binding k role with
  | none => exact ⟨h, rfl⟩
  | some b =>
    dsimp only
    split
    · exact ⟨h, rfl⟩
    · exact ⟨h.throughBinding b _ _ _ _, by rw [h.rest]⟩

theorem State.Veiled.report (k : Aud) (r : Report) : State.Veiled tag (s.report k r) (t.report k r) := by
  have hpart : t.partState = s.partState := by rw [h.rest]
  have htime : t.houseTime = s.houseTime := by rw [h.rest]
  unfold State.report State.appendReport
  rw [hpart, h.aud, htime]
  dsimp only
  split
  · split
    · obtain ⟨hstate, hmade⟩ := h.launch k .reports (s.aud k).writer.offset 32
        (reportBytes (s.aud k).writer.writeCount s.houseTime k r) .reportWrite
      generalize s.launch k .reports _ _ _ _ = x at hstate hmade
      generalize t.launch k .reports _ _ _ _ = y at hstate hmade
      obtain ⟨x, made⟩ := x
      obtain ⟨y, made'⟩ := y
      obtain rfl : made' = made := hmade
      cases made' <;> exact hstate.modWriter k _
    · exact h.modWriter k fun w => { w with missed := w.missed + 1 }
  · exact h

theorem State.Veiled.reportAll (k : Aud) (l : List Report) : State.Veiled tag (s.reportAll k l) (t.reportAll k l) := by
  unfold State.reportAll
  induction l generalizing s t with
  | nil => exact h
  | cons r rest ih => exact ih (h.report k r)

end Veiled

/-- An auditorium's access that fails while the part is RUNNING is reported, and then taken by its block. -/
theorem State.InFlightAs.fails_running {s : State} {k : Aud} {tag : Nat} {a : Access} (h : s.InFlightAs tag a)
    (hrunning : s.partState = .running) (haud : a.aud = some k) (hdark : a.purpose ≠ .darkCheckRead)
    (hreport : a.purpose ≠ .reportWrite) {c : Instr} (hc : s.Ends a c true) :
    ∃ r, State.Veiled tag ((s.dropAccess tag).reportAll k [.regionFault a.role a.selector .memory a.offset]) r
      ∧ exec c s = .next (r.blockFailed k a) := by
  obtain ⟨t, hexec, hends⟩ := h.ends hc
  have hfailed (r : State) (hr : State.Veiled tag (s.dropAccess tag) r)
      (ht : t = r.endAccess fun s => s.accessFailed a) :
      ∃ r, State.Veiled tag ((s.dropAccess tag).reportAll k [.regionFault a.role a.selector .memory a.offset]) r
        ∧ exec c s = .next (r.blockFailed k a) := by
    refine ⟨_, hr.reportAll k _, hexec.trans (congrArg Host.Outcome.next (ht.trans ?_))⟩
    rw [State.endAccess_running (by rw [hr.rest]; exact hrunning), State.accessFailed_eq _ haud hdark hreport]
  cases hends with
  | readFails => exact hfailed _ (.refl _ _) (by rw [h.tagged])
  | writeFails => exact hfailed _ (State.veiled_withdraw tag _) (by rw [h.tagged])

/-! ## Becoming DARK (R148) -/

theorem State.setHouseFault_eq (s : State) : s.setHouseFault = { s with
    houseFault := true, notice := true
    messages := s.messages + (if s.notice = false ∧ s.noticeEn = true then 1 else 0) } := by
  unfold State.setHouseFault State.setNotice
  cases s.notice <;> cases s.noticeEn <;> rfl

/-- R148: the completions of the batch's accesses are to be discarded. -/
def Access.forgotten (k : Aud) (a : Access) : Access := { a with live := a.live && !a.ofBatch k }

theorem State.becomeDark_eq (s : State) (k : Aud) : s.becomeDark k = { s.modAud k Auditorium.becomeDark with
    inFlight := s.inFlight.map (Access.forgotten k), houseFault := true, notice := true
    bindings := s.bindings.filter fun b => b.aud != k
    messages := s.messages + (if s.notice = false ∧ s.noticeEn = true then 1 else 0) } := by
  have hflight : (s.inFlight.map fun a => if a.ofBatch k then { a with live := false } else a)
      = s.inFlight.map (Access.forgotten k) :=
    List.map_congr_left fun a _ => by
      unfold Access.forgotten
      cases a.ofBatch k <;> simp
  unfold State.becomeDark
  rw [hflight, State.setHouseFault_eq]
  rfl

theorem State.becomeDark_aud (s : State) (k : Aud) : (s.becomeDark k).aud k = (s.aud k).becomeDark := by
  rw [State.becomeDark_eq]
  exact State.aud_modAud_same s k Auditorium.becomeDark

theorem State.becomeDark_aud_ne (s : State) {k j : Aud} (hj : j ≠ k) : (s.becomeDark k).aud j = s.aud j := by
  rw [State.becomeDark_eq]
  exact State.aud_modAud_ne s _ hj

theorem Access.ofBatch_eq (k : Aud) (a : Access) : a.ofBatch k
    = (a.aud == some k && [Purpose.slotRead, .resultWrite, .ackWrite].contains a.purpose) := by
  unfold Access.ofBatch
  cases a.purpose <;> rfl

theorem Clock.toIdle_eq (c : Clock) : c.toIdle.1 = if c.state = .idle then c else { c with
    state := .idle, showTime := 0, fraction := 0, eps := 0, slew := 0, e1 := 0, e2 := 0, acquire := 0
    silence := 0, tally := 0 } := by
  unfold Clock.toIdle
  split <;> rfl

/-- R60, R93, R148: a ring of a show that becomes DARK. -/
def Ring.darkened (r : Ring) : Ring :=
  { r with bound := false, blocks := [], fetchGen := r.fetchGen + 1, resync := true, condition := .resting }

theorem Auditorium.becomeDark_eq (a : Auditorium) : a.becomeDark = { a with
    clock := if a.clock.state = .idle then a.clock else { a.clock with
      state := .idle, showTime := 0, fraction := 0, eps := 0, slew := 0, e1 := 0, e2 := 0, acquire := 0
      silence := 0, tally := 0 }
    seq := { a.seq with
      state := .idle, cursor := 0, listCount := 0, window := [], seek := none
      seekGen := a.seq.seekGen + 1, listEnd := false, active := noActive }
    mixer := { a.mixer with
      ringA := a.mixer.ringA.darkened, ringB := a.mixer.ringB.darkened, bed := a.mixer.bed.darkened
      gainA := a.mixer.settings.gb.toNat, gainB := a.mixer.settings.gb.toNat }
    builder := { a.builder with queue := [], records := [], closing := 0 }
    link := a.link.finishUp
    unit := { a.unit with showState := .dark, firstHead := false, batch := none, tag := .empty }
    writer := { a.writer with bound := false } } := by
  unfold Auditorium.becomeDark
  rw [Clock.toIdle_eq]
  rfl

/-- R148: a failed access of the show record acts, unless it is of an abandoned batch, stale, or of a DARK show. -/
theorem State.showFailed_eq (s : State) (k : Aud) (a : Access) : s.showFailed k a
    = if a.live = true ∧ (a.data = [] → s.isCurrent a = true) ∧ (s.aud k).unit.showState ≠ .dark then s.becomeDark k
      else s := by
  unfold State.showFailed
  refine if_congr ?_ rfl rfl
  simp only [Access.isWrite, Bool.and_eq_true, Bool.or_eq_true, Bool.not_eq_true', beq_eq_false_iff_ne, ne_eq,
    List.isEmpty_eq_false_iff, and_assoc]
  refine and_congr_right fun _ => and_congr_left fun _ => ?_
  by_cases hdata : a.data = [] <;> simp [hdata]

/-- Settles O36. -/
theorem headReadGivingUpMakesTheShowDark : Obligations.HeadReadGivingUpMakesTheShowDark := by
  unfold Obligations.HeadReadGivingUpMakesTheShowDark
  refine ⟨?_, ?_⟩
  · intro k tag a c s hrunning h haud hp hends held acts faulted ofBatch ring
    have hblock (r : State) : r.blockFailed k a = r.showFailed k a := by
      simp only [List.mem_cons, List.not_mem_nil, or_false] at hp
      unfold State.blockFailed
      obtain hp | hp | hp | hp | hp := hp <;> rw [hp]
    have hdark : a.purpose ≠ .darkCheckRead := fun g => by rw [g] at hp; revert hp; decide
    have hreport : a.purpose ≠ .reportWrite := fun g => by rw [g] at hp; revert hp; decide
    obtain ⟨r, hr, hexec⟩ := h.fails_running hrunning haud hdark hreport hends
    have honly : State.OnlyAud k (s.dropAccess tag) faulted := State.onlyAud_reportAll _ k _
    have haudk : faulted.aud k = { s.aud k with writer := (faulted.aud k).writer } := State.reportAll_aud _ k _ k
    have hothers (j : Aud) (hj : j ≠ k) : r.aud j = s.aud j := (hr.aud j).trans (honly.others j hj)
    have hacts : (a.live = true ∧ (a.data = [] → r.isCurrent a = true) ∧ (r.aud k).unit.showState ≠ .dark) ↔ acts := by
      rw [hr.isCurrent, State.reportAll_isCurrent, hr.aud, State.reportAll_unit]
      rfl
    rw [hblock, State.showFailed_eq] at hexec
    by_cases hact : acts
    · rw [if_pos (hacts.mpr hact)] at hexec
      have hdarkk : (r.becomeDark k).aud k = (faulted.aud k).becomeDark := by rw [State.becomeDark_aud, hr.aud]
      refine ⟨_, hexec, fun j hj => (r.becomeDark_aud_ne hj).trans (hothers j hj), fun _ => ⟨?_, ?_, ?_, ?_, ?_⟩,
        fun g => absurd hact g⟩
      · have hnotice : r.notice = s.notice := by rw [hr.rest]; exact honly.notice
        have hen : r.noticeEn = s.noticeEn := by rw [hr.rest]; exact honly.noticeEn
        have hmessages : r.messages = s.messages := by rw [hr.rest]; exact honly.messages
        rw [State.becomeDark_eq, hnotice, hen, hmessages, hr.bindings, honly.bindings, hr.rest]
        rfl
      · have hforgotten (l : List Access) : (l.map (Access.forgotten k)).map (Access.unseeing tag)
            = (l.map (Access.unseeing tag)).map (Access.forgotten k) := by
          rw [List.map_map, List.map_map]
          rfl
        rw [State.becomeDark_eq]
        refine (hforgotten r.inFlight).trans ?_
        rw [hr.flight, List.map_map]
        refine List.map_congr_left fun y _ => ?_
        simp only [Function.comp, Access.forgotten, Access.ofBatch_eq]
        rfl
      · rw [hdarkk, Auditorium.becomeDark_eq, haudk]
        rfl
      · intro ch
        rw [hdarkk]
        exact noActive_channel ch
      · rw [hdarkk, haudk]
        exact Link.finishUp_finishesAs _
    · rw [if_neg (mt hacts.mp hact)] at hexec
      exact ⟨r, hexec, hothers, fun g => absurd g hact, fun _ => ⟨hr.rest, hr.flight⟩⟩
  · intro tag a s h hyoung
    refine congrArg Host.Outcome.next ?_
    have hnone : (s.inFlight.find? fun x => x.tag == tag && s.overdue x) = none :=
      List.find?_eq_none.mpr fun x hx g => by
        obtain ⟨htag, hdue⟩ := Bool.and_eq_true_iff.mp g
        rw [h.only x hx (beq_iff_eq.mp htag)] at hdue
        have := ((s.overdue_iff a).mp hdue).2
        omega
    unfold State.giveUp
    rw [hnone]

end Sys2Proof.Machine
end

section
/-! SUPPORT. The show record: head reads, slot reads, and the writes that set NOTICE (R150 to R154, R188). -/

namespace Sys2Proof.Machine

/-! ## Head reads (R150, R152, R154) -/

section Reads
variable {s : State} {k : Aud} {tag : Nat} {a : Access}
  (hrunning : s.partState = .running) (h : s.InFlightAs tag a) (haud : a.aud = some k)

include hrunning h haud

theorem State.InFlightAs.headRead_ok (hp : a.purpose = .headRead) (hcurrent : s.isCurrent a = true) (d : List Byte) :
    exec (.headReadComplete tag (.ok d)) s = .next ((s.dropAccess tag).headRead k tag (a.received d)) := by
  refine congrArg Host.Outcome.next ((h.endRead_ok (by rw [hp]; rfl) d).trans ?_)
  rw [State.endAccess_running (s := s.dropAccess tag) hrunning]
  unfold State.readDone
  rw [haud]
  simp only [hp, h.tagged]
  exact if_pos hcurrent

theorem State.InFlightAs.slotRead_ok (hp : a.purpose = .slotRead) (hcurrent : s.isCurrent a = true) (d : List Byte) :
    exec (.slotReadComplete tag (.ok d)) s = .next ((s.dropAccess tag).slotsRead k (a.received d)) := by
  refine congrArg Host.Outcome.next ((h.endRead_ok (by rw [hp]; rfl) d).trans ?_)
  rw [State.endAccess_running (s := s.dropAccess tag) hrunning]
  unfold State.readDone
  rw [haud]
  simp only [hp]
  exact if_pos hcurrent

end Reads

/-- What is issued after a later state of the same tick, under the same binding, is issued after an earlier one. -/
theorem State.Issued.before {s s' t : State} {k : Aud} {role : Role} {offset length : Nat} {data : List Byte}
    {purpose : Purpose} (h : s'.Issued t k role offset length data purpose) (htag : s.nextTag ≤ s'.nextTag)
    (htime : s'.houseTime = s.houseTime) (hbinding : s'.binding k role = s.binding k role) :
    s.Issued t k role offset length data purpose := by
  obtain ⟨x, hx, a, ha, hlater, hissued, hrest⟩ := h
  exact ⟨x, hbinding.symm.trans hx, a, ha, Nat.le_trans htag hlater,
    hissued.trans htime, hrest⟩

/-- R150: the blocks of an auditorium that has been handed the head `d`. -/
def Auditorium.handed (a : Auditorium) (d : List Byte) : Auditorium :=
  { a with
    mixer := a.mixer.setFills (wordAt d 4) (wordAt d 8) (wordAt d 12)
    writer := { a.writer with readCount := wordAt d 16 } }

theorem State.handHead_eq (s : State) (k : Aud) (d : List Byte) : s.handHead k d = s.modAud k fun a => a.handed d := by
  unfold State.handHead
  rw [State.modMixer_def, State.modWriter_def, State.modAud_modAud]
  rfl

/-- An access to the show record that lies within it issues one access and leaves the blocks. -/
theorem State.access_showRecord {s : State} {k : Aud} {x : Binding} (hx : s.binding k .showRecord = some x)
    (hl : 511 ≤ x.limit.toNat) {offset length : Nat} (hin : offset + length ≤ 512) (data : List Byte)
    (purpose : Purpose) :
    s.Issued (s.access k .showRecord offset length data purpose).1 k .showRecord offset length data purpose
      ∧ (∀ j, (s.access k .showRecord offset length data purpose).1.aud j = s.aud j)
      ∧ ∃ a, State.Makes k s (s.access k .showRecord offset length data purpose).1 [a] ∧ a.purpose = purpose := by
  have hfits : offset + length - 1 ≤ x.limit.toNat := by omega
  obtain ⟨a, hmakes, hrole, hoffset, hlength, hdata, hpurpose, _⟩ := State.makes_access_made hx hfits data purpose
  refine ⟨hmakes.issued_as (List.mem_singleton.mpr rfl) hrole hoffset hlength hdata hpurpose, fun j => ?_, a, hmakes,
    hpurpose⟩
  rw [State.access_made hx hfits]
  rfl

section HeadRead
variable {s : State} {k : Aud} (tag : Nat) {d : List Byte}

theorem State.headRead_first (h : (s.aud k).unit.firstHead = false) :
    s.headRead k tag d = (s.handHead k d).adopt k (wordAt d 0) := if_pos (by rw [h]; rfl)

theorem State.headRead_quiet {tag : Nat} (h : (s.aud k).unit.firstHead = true)
    (hquiet : wordAt d 0 = (s.aud k).unit.ackGeneration ∨ (s.aud k).unit.batch ≠ none ∨ tag < (s.aud k).unit.headFrom) :
    s.headRead k tag d = s.handHead k d := by
  refine (if_neg (by rw [h]; decide)).trans ?_
  by_cases hgen : wordAt d 0 = (s.aud k).unit.ackGeneration
  · exact if_pos hgen
  · refine (if_neg hgen).trans ?_
    by_cases hbatch : (s.aud k).unit.batch.isSome = true
    · exact if_pos hbatch
    · have hnone : (s.aud k).unit.batch = none := by simpa using hbatch
      exact (if_neg hbatch).trans (if_pos ((hquiet.resolve_left hgen).resolve_left fun g => g hnone))

theorem State.headRead_begins {tag : Nat} (h : (s.aud k).unit.firstHead = true)
    (hgen : wordAt d 0 ≠ (s.aud k).unit.ackGeneration) (hbatch : (s.aud k).unit.batch = none)
    (hfrom : (s.aud k).unit.headFrom ≤ tag) : s.headRead k tag d = (s.handHead k d).beginBatch k (wordAt d 0) :=
  (if_neg (by rw [h]; decide)).trans ((if_neg hgen).trans ((if_neg (by rw [hbatch]; decide)).trans
    (if_neg (Nat.not_lt.mpr hfrom))))

end HeadRead

/-- Settles O34. -/
theorem headReadAdoptsOrBeginsABatch : Obligations.HeadReadAdoptsOrBeginsABatch := by
  unfold Obligations.HeadReadAdoptsOrBeginsABatch
  intro k tag a bytes x s hrunning h haud hp hcurrent hx hl generation
  let d := a.received bytes
  let handed := (s.dropAccess tag).handHead k d
  have hhanded : handed = (s.dropAccess tag).modAud k fun a => a.handed d := State.handHead_eq _ k d
  have haudk : handed.aud k = (s.aud k).handed d := by rw [hhanded, State.aud_modAud_same]; rfl
  have hothers (j : Aud) (hj : j ≠ k) : handed.aud j = s.aud j := by rw [hhanded]; exact State.aud_modAud_ne _ _ hj
  have hexec := h.headRead_ok hrunning haud hp hcurrent bytes
  have hcore (t : State) (unit : DirectiveUnit) (ht : t.aud k = { (s.aud k).handed d with unit := unit })
      (hothers : ∀ j, j ≠ k → t.aud j = s.aud j) (hshow : unit.showState = (s.aud k).unit.showState) :
      (∀ j, j ≠ k → t.aud j = s.aud j) ∧ (t.aud k).mixer.ringA.fill = wordAt d 4
      ∧ (t.aud k).mixer.ringB.fill = wordAt d 8 ∧ (t.aud k).mixer.bed.fill = wordAt d 12
      ∧ (t.aud k).writer.readCount = wordAt d 16 ∧ (t.aud k).unit.showState = (s.aud k).unit.showState := by
    rw [ht]
    exact ⟨hothers, rfl, rfl, rfl, rfl, hshow⟩
  have hissues (unit : DirectiveUnit) (offset length : Nat) (hin : offset + length ≤ 512) (data : List Byte)
      (purpose : Purpose) :
      let t := ((handed.modUnit k fun _ => unit).access k .showRecord offset length data purpose).1
      t.aud k = { (s.aud k).handed d with unit := unit } ∧ (∀ j, j ≠ k → t.aud j = s.aud j)
        ∧ s.Issued t k .showRecord offset length data purpose := by
    intro t
    have hx' : (handed.modUnit k fun _ => unit).binding k .showRecord = some x := by
      rw [State.modUnit_def, hhanded]; exact hx
    obtain ⟨hissued, haud', _⟩ := State.access_showRecord hx' hl hin data purpose
    refine ⟨?_, fun j hj => ?_, ?_⟩
    · rw [haud', State.modUnit_def, State.aud_modAud_same, haudk]
    · rw [haud', State.modUnit_def, State.aud_modAud_ne _ _ hj]
      exact hothers j hj
    · have hframe : handed.nextTag = s.nextTag ∧ handed.houseTime = s.houseTime ∧ handed.bindings = s.bindings := by
        rw [hhanded]
        exact ⟨rfl, rfl, rfl⟩
      exact hissued.before (Nat.le_of_eq hframe.1.symm) hframe.2.1 (State.binding_congr hframe.2.2 k .showRecord)
  by_cases hfirst : (s.aud k).unit.firstHead = true
  · by_cases hquiet : generation = (s.aud k).unit.ackGeneration ∨ (s.aud k).unit.batch ≠ none
        ∨ tag < (s.aud k).unit.headFrom
    · rw [State.headRead_quiet (s := s.dropAccess tag) hfirst hquiet] at hexec
      obtain ⟨h1, h2, h3, h4, h5, h6⟩ := hcore handed (s.aud k).unit haudk hothers rfl
      refine ⟨handed, hexec, h1, h2, h3, h4, h5, h6, (fun g => by rw [g] at hfirst; exact nomatch hfirst), fun _ _ => ?_,
        fun _ hgen hbatch hfrom => ?_⟩
      · rw [haudk]
        exact ⟨rfl, by rw [hhanded]; rfl⟩
      · exact absurd hquiet (by rintro (g | g | g) <;> [exact hgen g; exact g hbatch; omega])
    · have hgen : generation ≠ (s.aud k).unit.ackGeneration := fun g => hquiet (.inl g)
      have hbatch : (s.aud k).unit.batch = none := by
        by_contra g
        exact hquiet (.inr (.inl g))
      have hfrom : (s.aud k).unit.headFrom ≤ tag := Nat.not_lt.mp fun g => hquiet (.inr (.inr g))
      rw [State.headRead_begins (s := s.dropAccess tag) hfirst hgen hbatch hfrom] at hexec
      have hunit : (handed.aud k).unit = (s.aud k).unit := by rw [haudk]; rfl
      let batch : Batch := { generation := generation, slots := [], next := 0, phase := .reading, outstanding := [] }
      let unit : DirectiveUnit := { (s.aud k).unit with batch := some batch }
      obtain ⟨htk, hto, hissued⟩ := hissues unit 64 256 (by decide) [] .slotRead
      have hbegins : handed.beginBatch k generation
          = ((handed.modUnit k fun _ => unit).access k .showRecord 64 256 [] .slotRead).1 := by
        simp only [unit, batch, ← hunit]
        rfl
      rw [← hbegins] at htk hto hissued
      obtain ⟨h1, h2, h3, h4, h5, h6⟩ := hcore (handed.beginBatch k generation) unit htk hto rfl
      refine ⟨_, hexec, h1, h2, h3, h4, h5, h6, (fun g => by rw [g] at hfirst; exact nomatch hfirst),
        fun _ g => absurd g hquiet, fun _ _ _ _ => ⟨?_, hissued⟩⟩
      exact (congrArg Auditorium.unit htk :)
  · have hnot : (s.aud k).unit.firstHead = false := by simpa using hfirst
    rw [State.headRead_first (s := s.dropAccess tag) tag hnot] at hexec
    have hunit : (handed.aud k).unit = (s.aud k).unit := by rw [haudk]; rfl
    let unit : DirectiveUnit := { (s.aud k).unit with ackGeneration := generation, firstHead := true }
    let adopting := handed.modUnit k fun _ => unit
    obtain ⟨htk, hto, hissued⟩ := hissues unit 320 192 (by decide) (snapshotBytes (adopting.aud k)) .snapshotWrite
    have hadopts : handed.adopt k generation
        = (adopting.access k .showRecord 320 192 (snapshotBytes (adopting.aud k)) .snapshotWrite).1 := by
      simp only [adopting, unit, ← hunit]
      rfl
    have hsame : (handed.adopt k generation).aud k = adopting.aud k := by
      have hunits : adopting.aud k = { (s.aud k).handed d with unit := unit } := by
        rw [show adopting = handed.modUnit k fun _ => unit from rfl, State.modUnit_def, State.aud_modAud_same, haudk]
      exact (congrArg (fun t : State => t.aud k) hadopts).trans (htk.trans hunits.symm)
    rw [← hadopts] at htk hto hissued
    obtain ⟨h1, h2, h3, h4, h5, h6⟩ := hcore (handed.adopt k generation) unit htk hto rfl
    refine ⟨_, hexec, h1, h2, h3, h4, h5, h6, fun _ => ⟨(congrArg Auditorium.unit htk :), ?_⟩,
      (fun g => absurd g hfirst), fun g => absurd g hfirst⟩
    rw [hsame]
    exact hissued

/-! ## Acknowledgement and report writes (R154, R180, R188) -/

/-- R142: a write that no error was signalled for ends well in its turn. -/
theorem State.InFlightAs.write_succeeds {s : State} {tag : Nat} {a : Access} (h : s.InFlightAs tag a)
    (hrunning : s.partState = .running) {sort : Purpose → Bool} (hsort : sort a.purpose = true)
    (hturn : ∀ y ∈ s.inFlight, y.tag < a.tag → ¬y.CommonByte a) (hanswer : a.answer ≠ some false) :
    s.endWrite tag sort true = (s.dropAccess tag).writeDone a := by
  have hok : a.answer.getD true = true := by
    cases hans : a.answer with
    | none => rfl
    | some ok =>
      cases ok with
      | true => rfl
      | false => exact absurd hans hanswer
  rw [h.endWrite_inTurn hsort true hturn, hok, State.writeEnded, if_pos rfl,
    State.endAccess_running (s := s.dropAccess a.tag) hrunning, h.tagged]

theorem State.InFlightAs.write_fails {s : State} {tag : Nat} {a : Access} (h : s.InFlightAs tag a)
    (hrunning : s.partState = .running) {sort : Purpose → Bool} (hsort : sort a.purpose = true)
    (hturn : ∀ y ∈ s.inFlight, y.tag < a.tag → ¬y.CommonByte a) (hanswer : a.answer = none) :
    s.endWrite tag sort false = ((s.dropAccess tag).withdraw tag).accessFailed a := by
  rw [h.endWrite_inTurn hsort false hturn, hanswer, Option.getD_none, State.writeEnded, if_neg Bool.false_ne_true,
    State.endAccess_running (s := (s.dropAccess a.tag).withdraw a.tag) hrunning, h.tagged]

theorem State.setNotice_eq (s : State) : s.setNotice = { s with
    notice := true, messages := s.messages + (if s.notice = false ∧ s.noticeEn = true then 1 else 0) } := by
  unfold State.setNotice
  cases s.notice <;> cases s.noticeEn <;> rfl

/-- R154: the state in which an acknowledgement write has completed. -/
theorem State.acknowledged_eq (s : State) (k : Aud) : s.acknowledged k
    = { s.modAud k fun a => { a with unit := { a.unit with batch := none, headFrom := s.nextTag } } with
        notice := true, messages := s.messages + (if s.notice = false ∧ s.noticeEn = true then 1 else 0) } := by
  unfold State.acknowledged
  rw [State.setNotice_eq]
  rfl

theorem State.acknowledged_aud (s : State) (k : Aud) : (s.acknowledged k).aud k
    = { s.aud k with unit := { (s.aud k).unit with batch := none, headFrom := s.nextTag } } := by
  unfold State.acknowledged
  rw [State.setNotice_aud, State.modUnit_def, State.aud_modAud_same]

theorem State.acknowledged_aud_ne (s : State) {k j : Aud} (hj : j ≠ k) : (s.acknowledged k).aud j = s.aud j := by
  unfold State.acknowledged
  rw [State.setNotice_aud, State.modUnit_def, State.aud_modAud_ne _ _ hj]

/-- An access in flight is so after another has ended. -/
theorem State.InFlightAs.outlasts {s t : State} {tag other : Nat} {a : Access} (h : s.InFlightAs tag a) (hne : tag ≠ other)
    (hflight : t.inFlight = s.inFlight.filter fun y => y.tag != other) : t.InFlightAs tag a where
  member := by
    rw [hflight]
    exact List.mem_filter.mpr ⟨h.member, by simpa [h.tagged] using hne⟩
  tagged := h.tagged
  only := fun x hx => h.only x (by rw [hflight] at hx; exact (List.mem_filter.mp hx).1)

/-- Settles O39. -/
theorem ackAndReportWritesSetNotice : Obligations.AckAndReportWritesSetNotice := by
  unfold Obligations.AckAndReportWritesSetNotice
  refine ⟨?_, ?_⟩
  · intro k tag a s hrunning h haud hp hlive hturn
    obtain ⟨hinturn, hanswer⟩ := hturn
    have hexec : exec (.ackWriteComplete tag true) s = .next ((s.dropAccess tag).acknowledged k) := by
      refine congrArg Host.Outcome.next
        ((h.write_succeeds hrunning (by rw [hp]; rfl) hinturn hanswer).trans ?_)
      unfold State.writeDone
      rw [haud]
      simp only [hp]
      exact if_pos hlive
    let t := (s.dropAccess tag).acknowledged k
    have ht : t = _ := State.acknowledged_eq _ k
    have htk := (s.dropAccess tag).acknowledged_aud k
    refine ⟨t, hexec, htk, by rw [ht]; rfl, by rw [ht], by rw [ht]; rfl, by rw [ht]; rfl, by rw [ht]; rfl, by rw [ht]; rfl,
      fun j hj => State.acknowledged_aud_ne _ hj, fun earlier hd bytes hhd hhaud hhp hearlier hhcurrent hfirst => ?_⟩
    have hne : earlier ≠ tag := fun g => by
      rw [h.only hd hhd.member (hhd.tagged.trans g), hp] at hhp
      exact nomatch hhp
    have hcur : t.isCurrent hd = true := (State.isCurrent_congr (by rw [ht]; rfl) hd).trans hhcurrent
    have hflight : t.InFlightAs earlier hd := hhd.outlasts hne (by rw [ht]; rfl)
    have hread := hflight.headRead_ok (by rw [ht]; exact hrunning) hhaud hhp hcur bytes
    rw [State.headRead_quiet (s := t.dropAccess earlier) ((congrArg (fun a => a.unit.firstHead) htk).trans hfirst)
      (.inr (.inr (hearlier.trans_eq (congrArg (fun a : Auditorium => a.unit.headFrom) htk).symm))),
      State.handHead_eq] at hread
    exact ⟨_, hread, by rw [State.aud_modAud_same]; rfl, rfl⟩
  · intro k tag a s hrunning h haud hp hturn hanswer
    have hturn' : ∀ y ∈ s.inFlight, y.tag < a.tag → ¬y.CommonByte a := by rw [h.tagged]; exact hturn
    have hdone : exec (.reportEntryWriteComplete tag true) s = .next (s.dropAccess tag).setNotice := by
      refine congrArg Host.Outcome.next ((h.write_succeeds hrunning (by rw [hp]; rfl) hturn'
        (by rw [hanswer]; exact fun g => nomatch g)).trans ?_)
      unfold State.writeDone
      rw [haud]
      simp only [hp]
    have hfails : exec (.reportEntryWriteComplete tag false) s
        = .next (((s.dropAccess tag).withdraw tag).missReport k) := by
      refine congrArg Host.Outcome.next ((h.write_fails hrunning (by rw [hp]; rfl) hturn' hanswer).trans ?_)
      unfold State.accessFailed State.memoryFault State.blockFailed
      rw [haud]
      simp only [hp]
    rw [State.setNotice_eq] at hdone
    exact ⟨⟨_, hdone, rfl, rfl, rfl, rfl, fun _ => rfl, rfl⟩, _, hfails, rfl, rfl, rfl, rfl,
      State.aud_modAud_same _ _ _, rfl, fun j hj => State.aud_modAud_ne _ _ hj⟩

end Sys2Proof.Machine
end

section
/-! SUPPORT. Slot reads (R152, R153). -/

namespace Sys2Proof.Machine

/-! ## The bytes of the slots (R149, R192) -/

theorem length_padTo (n : Nat) (d : List Byte) : (padTo n d).length = n := by
  simp [padTo]

theorem byteAt_padTo {n i : Nat} (d : List Byte) (h : i < n) : byteAt (padTo n d) i = byteAt d i := by
  unfold byteAt padTo
  rw [List.getD_eq_getElem?_getD, List.getD_eq_getElem?_getD, List.getElem?_take_of_lt h]
  by_cases hi : i < d.length
  · rw [List.getElem?_append_left hi]
  · rw [List.getElem?_append_right (Nat.not_lt.mp hi), List.getElem?_replicate_of_lt (by omega),
      List.getElem?_eq_none (Nat.not_lt.mp hi)]
    rfl

theorem parseSlots_getD (d : List Byte) {n : Nat} (h : n < 8) :
    (parseSlots d).getD n [] = padTo 15 (d.drop (32 * n)) := by
  simp [parseSlots, List.getD_eq_getElem?_getD, h]

theorem byteAt_parseSlots (d : List Byte) {n i : Nat} (hn : n < 8) (hi : i < 15) :
    byteAt ((parseSlots d).getD n []) i = byteAt d (32 * n + i) := by
  rw [parseSlots_getD d hn, byteAt_padTo _ hi]
  simp [byteAt, List.getD_eq_getElem?_getD, List.getElem?_drop]

theorem length_of_mem_parseSlots {d slot : List Byte} (h : slot ∈ parseSlots d) : slot.length = 15 := by
  obtain ⟨n, _, rfl⟩ := List.mem_map.mp h
  exact length_padTo 15 _

/-! ## A batch comes to slot 0 (R153) -/

/-- A batch that ends at slot 0 writes result 0 into all eight slots, and waits for these writes. -/
theorem State.comeToFirst_ends {s : State} {k : Aud} {x : Binding} {b : Batch}
    (hx : s.binding k .showRecord = some x) (hlim : 511 ≤ x.limit.toNat) (hb : (s.aud k).unit.batch = some b)
    (hends : b.endsAt 0 = true) :
    ∃ made, State.ResultsMade s (s.comeToSlot k 0) x ((List.range 8).map fun i => (resultOffset i, [0])) made
      ∧ (∀ j, j ≠ k → (s.comeToSlot k 0).aud j = s.aud j)
      ∧ (s.comeToSlot k 0).aud k = { s.aud k with unit := { (s.aud k).unit with batch := some { b with
          next := 0, phase := .ending, outstanding := b.outstanding ++ made.map Access.tag } } } := by
  let s1 := s.modUnit k fun u => { u with batch := some { b with next := 0, phase := .ending } }
  have hin : ∀ i ∈ (List.range 8).drop 0, resultOffset i + ([0] : List Byte).length - 1 ≤ x.limit.toNat := fun i hi => by
    have := List.mem_range.mp (List.mem_of_mem_drop hi)
    simp only [List.length_singleton]
    unfold resultOffset
    omega
  obtain ⟨made, hmade, hunit⟩ := State.batchWrites_resultsMade (k := k) [0] resultOffset ((List.range 8).drop 0) hin s1 hx
  obtain ⟨honly, tags, haud⟩ := State.batchWrites_aud (k := k) [0] resultOffset ((List.range 8).drop 0) hin s1 hx
  have hs1 : s1.aud k = { s.aud k with unit := { (s.aud k).unit with
      batch := some { b with next := 0, phase := .ending } } } := by
    rw [show s1 = s.modUnit k _ from rfl, State.modUnit_def, State.aud_modAud_same]
  have hall : (s1.writeUnprocessed k 0).aud k = { s.aud k with unit := { (s.aud k).unit with batch := some { b with
      next := 0, phase := .ending, outstanding := b.outstanding ++ made.map Access.tag } } } := by
    have hrest : (s1.writeUnprocessed k 0).aud k
        = { s1.aud k with unit := ((s1.writeUnprocessed k 0).aud k).unit } := by
      rw [State.writeUnprocessed, haud]
    rw [hrest, State.writeUnprocessed, hunit, hs1]
    rfl
  have hsome : made ≠ [] := fun g => by
    have := hmade.writes
    rw [g] at this
    exact nomatch this
  have hbatch : ((s1.writeUnprocessed k 0).aud k).unit.batch = some { b with
      next := 0, phase := .ending, outstanding := b.outstanding ++ made.map Access.tag } := by rw [hall]
  have hwaits : (s1.writeUnprocessed k 0).settleBatch k = s1.writeUnprocessed k 0 :=
    State.settleBatch_waiting hbatch (by simp [hsome])
  have hcome : s.comeToSlot k 0 = s1.writeUnprocessed k 0 := by
    unfold State.comeToSlot
    rw [hb]
    exact (if_pos hends).trans hwaits
  rw [hcome]
  exact ⟨made, ((State.ResultsMade.none s x).then_modAud k _).trans hmade,
    fun j hj => (honly.others j hj).trans (State.aud_modAud_ne _ _ hj), hall⟩

/-- Settles O35. -/
theorem slotReadTakesSlotZeroOrEnds : Obligations.SlotReadTakesSlotZeroOrEnds := by
  unfold Obligations.SlotReadTakesSlotZeroOrEnds
  intro k tag a bytes b x s hrunning h haud hp hcurrent hb hphase hx hl read rest
  let held : Batch := { b with slots := parseSlots read }
  let s1 := (s.dropAccess tag).modUnit k fun u => { u with batch := some held }
  have hexec : exec (.slotReadComplete tag (.ok bytes)) s = .next (s1.comeToSlot k 0) := by
    refine (h.slotRead_ok hrunning haud hp hcurrent bytes).trans (congrArg Host.Outcome.next ?_)
    unfold State.slotsRead
    have hb' : ((s.dropAccess tag).aud k).unit.batch = some b := hb
    rw [hb']
    exact if_pos hphase
  have hs1 : s1.aud k = { s.aud k with unit := { (s.aud k).unit with batch := some held } } := by
    rw [show s1 = (s.dropAccess tag).modUnit k _ from rfl, State.modUnit_def, State.aud_modAud_same]
    rfl
  have hothers (j : Aud) (hj : j ≠ k) : s1.aud j = s.aud j := State.aud_modAud_ne _ _ hj
  have hheld : (s1.aud k).unit.batch = some held := by rw [hs1]
  have hends : held.endsAt 0 = true ↔ byteAt read 0 = 0#8 := by
    rw [held.endsAt_iff, byteAt_parseSlots read (by decide) (by decide)]
    simp
  have hslots : held.slots.length = 8 ∧ (∀ slot ∈ held.slots, slot.length = 15)
      ∧ ∀ n, n < 8 → ∀ i, i < 15 → byteAt (held.slots.getD n []) i = byteAt read (32 * n + i) :=
    ⟨by simp [held, parseSlots], fun slot hs => length_of_mem_parseSlots hs, fun n hn i hi => byteAt_parseSlots read hn hi⟩
  obtain ⟨hlength, hwidth, hbytes⟩ := hslots
  by_cases hend : byteAt read 0 = 0#8
  · obtain ⟨made, hmade, hto, hall⟩ := State.comeToFirst_ends (s := s1) hx hl hheld (hends.mpr hend)
    have hdrop : (s1.comeToSlot k 0).inFlight.drop rest.length = made := by
      rw [hmade.inFlight]
      exact List.drop_left
    refine ⟨_, { held with next := 0, phase := .ending, outstanding := b.outstanding ++ made.map Access.tag }, hexec,
      fun j hj => (hto j hj).trans (hothers j hj), by rw [hall, hs1], rfl, hlength, hwidth, hbytes, fun g => absurd hend g,
      fun _ => ⟨rfl, fun n hn => ?_, ?_, ?_⟩⟩
    · exact hmade.issued hx (List.mem_map.mpr ⟨n, List.mem_range.mpr hn, rfl⟩)
    · rw [hdrop]
      have := congrArg (List.map Prod.fst) hmade.writes
      simp only [List.map_map] at this
      exact .of_eq this
    · rw [hdrop]
  · have hcome : s1.comeToSlot k 0 = s1.modUnit k fun u => { u with batch := some { held with
        next := 0, phase := .taking } } := by
      unfold State.comeToSlot
      rw [hheld]
      exact if_neg (mt hends.mp hend)
    rw [hcome] at hexec
    refine ⟨_, { held with next := 0, phase := .taking }, hexec, fun j hj => (State.aud_modAud_ne _ _ hj).trans (hothers j hj),
      ?_, rfl, hlength, hwidth, hbytes, fun _ => ⟨rfl, rfl, rfl⟩, fun g => absurd g hend⟩
    rw [State.modUnit_def, State.aud_modAud_same, hs1]

end Sys2Proof.Machine
end

section
/-! SUPPORT. Writes in their order, and what a read sees of them (R142, R153, R154, R174; log entries 7, 36). -/

namespace Sys2Proof.Machine

/-! ## How a write ends -/

theorem State.InFlightAs.endWrite_succeeds {s : State} {tag : Nat} {a : Access} (h : s.InFlightAs tag a)
    {sort : Purpose → Bool} (hsort : sort a.purpose = true) {ok : Bool} (hok : false = !a.answer.getD ok)
    (hturn : ∀ y ∈ s.inFlight, y.tag < a.tag → ¬y.CommonByte a) :
    s.endWrite tag sort ok = (s.dropAccess tag).endAccess fun s => s.writeDone a := by
  have hgood : a.answer.getD ok = true := by simpa using hok
  rw [h.endWrite_inTurn hsort ok hturn, hgood, State.writeEnded, if_pos rfl, h.tagged]

/-- A write that does not fail ends by the completion of its sort, in its turn. -/
theorem State.InFlightAs.writeSucceeds {s : State} {tag : Nat} {a : Access} (h : s.InFlightAs tag a)
    (hwrite : a.purpose.isRead = false) {c : Instr} (hc : s.Ends a c false) :
    exec c s = .next ((s.dropAccess tag).endAccess fun s => s.writeDone a) := by
  have hcontra (hread : a.purpose.isRead = true) :
      exec c s = .next ((s.dropAccess tag).endAccess fun s => s.writeDone a) := by
    rw [hwrite] at hread
    exact nomatch hread
  cases c with
  | entryReadComplete tag' r => obtain ⟨_, ⟨_, _, hp⟩, _⟩ := hc; exact hcontra (by rw [hp]; rfl)
  | textReadComplete tag' r => obtain ⟨_, ⟨_, _, hp⟩, _⟩ := hc; exact hcontra (by rw [hp]; rfl)
  | scanReadComplete tag' r => obtain ⟨_, ⟨_, _, hp⟩, _⟩ := hc; exact hcontra (by rw [hp]; rfl)
  | lookbackReadComplete tag' r => obtain ⟨_, ⟨_, _, hp⟩, _⟩ := hc; exact hcontra (by rw [hp]; rfl)
  | blockReadComplete tag' r => obtain ⟨_, ⟨_, _, _, hp⟩, _⟩ := hc; exact hcontra (by rw [hp]; rfl)
  | descriptorReadComplete tag' r =>
    obtain ⟨_, hp, _⟩ := hc
    simp only [List.mem_cons, List.not_mem_nil, or_false] at hp
    obtain hp | hp | hp := hp <;> exact hcontra (by rw [hp]; rfl)
  | cueListHeaderReadComplete tag' r => obtain ⟨_, hp, _⟩ := hc; exact hcontra (by rw [hp]; rfl)
  | headReadComplete tag' r => obtain ⟨_, hp, _⟩ := hc; exact hcontra (by rw [hp]; rfl)
  | slotReadComplete tag' r => obtain ⟨_, hp, _⟩ := hc; exact hcontra (by rw [hp]; rfl)
  | readGiveUp tag' => exact nomatch hc.2.2.2
  | writeComplete tag' ok =>
    obtain ⟨rfl, hp, hok, hturn⟩ := hc
    refine congrArg Host.Outcome.next (h.tagged ▸ h.endWrite_succeeds ?_ hok hturn)
    simp only [List.mem_cons, List.not_mem_nil, or_false] at hp
    obtain hp | hp | hp | hp | hp := hp <;> rw [hp] <;> rfl
  | ackWriteComplete tag' ok =>
    obtain ⟨rfl, hp, hok, hturn⟩ := hc
    exact congrArg Host.Outcome.next (h.tagged ▸ h.endWrite_succeeds (by rw [List.mem_singleton.mp hp]; rfl) hok hturn)
  | reportEntryWriteComplete tag' ok =>
    obtain ⟨rfl, hp, hok, hturn⟩ := hc
    exact congrArg Host.Outcome.next (h.tagged ▸ h.endWrite_succeeds (by rw [List.mem_singleton.mp hp]; rfl) hok hturn)
  | _ => exact hc.elim

/-! ## The end of a batch's write (R153, R154) -/

/-- A write that a batch may wait for ends: what is left is waited for, or the batch acknowledges. -/
theorem State.InFlightAs.batchWriteEnds {s : State} {k : Aud} {tag : Nat} {a : Access} (h : s.InFlightAs tag a)
    (hrunning : s.partState = .running) (haud : a.aud = some k)
    (hp : a.purpose ∈ [.resultWrite, .bindingWrite, .flagWrite]) {failed : Bool}
    (hresult : a.purpose = .resultWrite → failed = false) {c : Instr} (hc : s.Ends a c failed) :
    ∃ r, State.Veiled tag ((s.dropAccess tag).reportAll k
        (if failed then [.regionFault a.role a.selector .memory a.offset] else [])) r
      ∧ exec c s = .next (r.batchDone k tag) := by
  simp only [List.mem_cons, List.not_mem_nil, or_false] at hp
  cases failed with
  | false =>
    refine ⟨s.dropAccess tag, .refl _ _, ?_⟩
    have hwrite : a.purpose.isRead = false := by obtain hp | hp | hp := hp <;> rw [hp] <;> rfl
    rw [h.writeSucceeds hwrite hc, State.endAccess_running (s := s.dropAccess tag) hrunning]
    unfold State.writeDone
    rw [haud]
    obtain hp | hp | hp := hp <;> simp only [hp, h.tagged]
  | true =>
    have hp := hp.resolve_left fun g => nomatch hresult g
    have hdark : a.purpose ≠ .darkCheckRead := fun g => by rw [g] at hp; obtain hp | hp := hp <;> exact nomatch hp
    have hreport : a.purpose ≠ .reportWrite := fun g => by rw [g] at hp; obtain hp | hp := hp <;> exact nomatch hp
    obtain ⟨r, hr, hexec⟩ := h.fails_running hrunning haud hdark hreport hc
    refine ⟨r, hr, hexec.trans (congrArg Host.Outcome.next ?_)⟩
    unfold State.blockFailed
    obtain hp | hp := hp <;> simp only [hp, h.tagged]

/-! ## What a read sees of the writes in flight (R142) -/

theorem foldl_set_length (l : List Forward) (d : List Byte) :
    (l.foldl (fun bytes f => bytes.set f.offset f.value) d).length = d.length := by
  induction l generalizing d with
  | nil => rfl
  | cons f rest ih => rw [List.foldl_cons, ih, List.length_set]

/-- A byte laid over several times keeps the last of them. -/
theorem foldl_set_getD {i : Nat} (l : List Forward) (d : List Byte) (hi : i < d.length) :
    (l.foldl (fun bytes f => bytes.set f.offset f.value) d).getD i 0
      = match (l.filter fun f => f.offset == i).getLast? with
        | some f => f.value
        | none => d.getD i 0 := by
  induction l generalizing d with
  | nil => rfl
  | cons f rest ih =>
    rw [List.foldl_cons, ih _ (by rw [List.length_set]; exact hi)]
    by_cases hf : f.offset = i
    · rw [List.filter_cons_of_pos (by simpa using hf), List.getLast?_cons]
      cases (rest.filter fun f => f.offset == i).getLast? with
      | some g => rfl
      | none => simp [hf, List.getD_eq_getElem?_getD, hi]
    · rw [List.filter_cons_of_neg (by simpa using hf)]
      cases (rest.filter fun f => f.offset == i).getLast? with
      | some g => rfl
      | none => simp [hf, List.getD_eq_getElem?_getD]

/-- One place of a range, at most. -/
theorem filterMap_range_eq {α : Type} (n p : Nat) (f : Nat → α) :
    (List.range n).filterMap (fun j => if j = p then some (f j) else none) = if p < n then [f p] else [] := by
  induction n with
  | zero => rfl
  | succ n ih =>
    rw [List.range_succ, List.filterMap_append, ih]
    by_cases hlt : p < n
    · have : n ≠ p := by omega
      simp [hlt, this, Nat.lt_succ_of_lt hlt]
    · by_cases heq : n = p
      · subst heq; simp
      · have : ¬p < n + 1 := by omega
        simp [hlt, heq, this]

/-- Where in the write `w` the byte `i` of a read at `address` lies. -/
def Access.place (w : Access) (address : Quad) (i : Nat) : Nat := (address + BitVec.ofNat 64 i - w.address).toNat

theorem Access.place_eq_iff (w : Access) (address : Quad) {i j : Nat} (hi : i < 512) (hj : j < 512) :
    (w.address + BitVec.ofNat 64 j - address).toNat = i ↔ j = w.place address i := by
  unfold Access.place
  constructor <;> intro h <;> bv_omega

/-- What the write `w` gives byte `i` of a read. -/
theorem Access.seenBy_at (w : Access) (address : Quad) {length i : Nat} (hi : i < length) (hlength : length ≤ 512)
    (hdata : w.data.length ≤ 512) : (w.seenBy address length).filter (fun f => f.offset == i)
      = if w.answer ≠ some false ∧ w.place address i < w.data.length
        then [{ writer := w.tag, offset := i, value := byteAt w.data (w.place address i) }] else [] := by
  unfold Access.seenBy
  by_cases hfailed : w.answer = some false
  · simp [hfailed]
  · rw [if_neg hfailed, List.filter_filterMap]
    have hplace : ∀ j ∈ List.range w.data.length,
        ((if (w.address + BitVec.ofNat 64 j - address).toNat < length then
            some ({ writer := w.tag, offset := (w.address + BitVec.ofNat 64 j - address).toNat
                    value := byteAt w.data j } : Forward) else none).filter fun f => f.offset == i)
          = if j = w.place address i then
              some ({ writer := w.tag, offset := i, value := byteAt w.data j } : Forward) else none := by
      intro j hj
      have hiff := w.place_eq_iff address (Nat.lt_of_lt_of_le hi hlength)
        (Nat.lt_of_lt_of_le (List.mem_range.mp hj) hdata)
      by_cases hat : (w.address + BitVec.ofNat 64 j - address).toNat = i
      · rw [if_pos (hiff.mp hat), hat, if_pos hi]
        simp
      · rw [if_neg (mt hiff.mpr hat)]
        split
        · exact Option.filter_some.trans (if_neg (mt beq_iff_eq.mp hat))
        · rfl
    rw [List.filterMap_congr hplace, filterMap_range_eq]
    simp [hfailed]

/-- Each byte of a read is that of the latest write that gives it one, or the host's. -/
theorem foldl_seenBy_getD {address : Quad} {length i : Nat} (hi : i < length) (hlength : length ≤ 512)
    (l : List Access) (hdata : ∀ w ∈ l, w.data.length ≤ 512) (d : List Byte) (hd : i < d.length) :
    ((l.flatMap fun w => w.seenBy address length).foldl (fun bytes f => bytes.set f.offset f.value) d).getD i 0
      = match (l.filter fun w => w.answer ≠ some false ∧ w.place address i < w.data.length).getLast? with
        | some w => w.data.getD (w.place address i) 0
        | none => d.getD i 0 := by
  induction l generalizing d with
  | nil => rfl
  | cons w rest ih =>
    rw [List.flatMap_cons, List.foldl_append,
      ih (fun v hv => hdata v (List.mem_cons_of_mem w hv)) _ (by rw [foldl_set_length]; exact hd)]
    have hone := foldl_set_getD (w.seenBy address length) d hd
    rw [w.seenBy_at address hi hlength (hdata w List.mem_cons_self)] at hone
    by_cases hw : w.answer ≠ some false ∧ w.place address i < w.data.length
    · rw [if_pos hw] at hone
      rw [List.filter_cons, if_pos (decide_eq_true hw), List.getLast?_cons]
      cases (rest.filter fun w => w.answer ≠ some false ∧ w.place address i < w.data.length).getLast? with
      | some g => rfl
      | none => exact hone
    · rw [if_neg hw] at hone
      rw [List.filter_cons, if_neg (by simpa using hw)]
      cases (rest.filter fun w => w.answer ≠ some false ∧ w.place address i < w.data.length).getLast? with
      | some g => rfl
      | none => exact hone

theorem padTo_getD {n i : Nat} (d : List Byte) (h : i < n) : (padTo n d).getD i 0 = d.getD i 0 := byteAt_padTo d h

/-- R142: a read through a binding sees the writes in flight. -/
theorem State.access_reads {s : State} {k : Aud} {role : Role} {x : Binding} (hx : s.binding k role = some x)
    {offset length : Nat} (hin : offset + length - 1 ≤ x.limit.toNat) (purpose : Purpose) (hlength : length ≤ 512)
    (hdata : ∀ w ∈ s.inFlight, w.data.length ≤ 512) :
    ∃ a, (s.access k role offset length [] purpose).1.inFlight = s.inFlight ++ [a]
      ∧ ∀ (d : List Byte) (i : Nat), i < length → (a.received d).getD i 0
        = match (s.inFlight.filter fun w => w.answer ≠ some false
              ∧ w.place (x.base + BitVec.ofNat 64 offset) i < w.data.length).getLast? with
          | some w => w.data.getD (w.place (x.base + BitVec.ofNat 64 offset) i) 0
          | none => d.getD i 0 := by
  rw [State.access_made hx hin]
  refine ⟨_, rfl, fun d i hi => ?_⟩
  have h := foldl_seenBy_getD (address := x.base + BitVec.ofNat 64 offset) hi hlength s.inFlight hdata (padTo length d)
    (by rw [length_padTo]; exact hi)
  rw [padTo_getD d hi] at h
  exact h

/-! ## Settling a batch (R154) -/

/-- R154: a batch that waits for nothing more acknowledges. -/
theorem State.settleBatch_acknowledges {s : State} {k : Aud} {b : Batch} (hb : (s.aud k).unit.batch = some b)
    (hphase : b.phase = .ending) (hnone : b.outstanding = []) : s.settleBatch k = s.acknowledge k b := by
  unfold State.settleBatch
  rw [hb]
  exact if_pos ⟨hphase, hnone⟩

theorem State.settleBatch_goesOn {s : State} {k : Aud} {b : Batch} (hb : (s.aud k).unit.batch = some b)
    (h : b.phase ≠ .ending ∨ b.outstanding ≠ []) : s.settleBatch k = s := by
  unfold State.settleBatch
  rw [hb]
  exact if_neg fun g => h.elim (fun f => f g.1) fun f => f g.2

/-- Settles O38. -/
theorem writesEndInTurnAndTheLastAcknowledges : Obligations.WritesEndInTurnAndTheLastAcknowledges := by
  unfold Obligations.WritesEndInTurnAndTheLastAcknowledges
  refine ⟨?_, ?_, ?_, ?_⟩
  · intro k tag a c failed b x s hrunning h haud hp hresult hends hb hx hl left told
    obtain ⟨r, hr, hexec⟩ := h.batchWriteEnds hrunning haud hp hresult hends
    have honly : State.OnlyAud k (s.dropAccess tag) told := State.onlyAud_reportAll _ k _
    have haudk : told.aud k = { s.aud k with writer := (told.aud k).writer } := State.reportAll_aud _ k _ k
    have hunit : (r.aud k).unit = (s.aud k).unit := by rw [hr.aud, haudk]
    let waiting : Batch := { b with outstanding := left }
    let r1 := r.modUnit k fun u => { u with batch := u.batch.map fun b =>
      { b with outstanding := b.outstanding.filter (· != tag) } }
    have hr1 : r1.aud k = { s.aud k with
        unit := { (s.aud k).unit with batch := some waiting }, writer := (told.aud k).writer } := by
      rw [show r1 = r.modUnit k _ from rfl, State.modUnit_def, State.aud_modAud_same, hr.aud, haudk]
      dsimp only
      rw [hb]
      rfl
    have hothers (j : Aud) (hj : j ≠ k) : r1.aud j = s.aud j :=
      (State.aud_modAud_ne _ _ hj).trans ((hr.aud j).trans (honly.others j hj))
    have hb1 : (r1.aud k).unit.batch = some waiting := by rw [hr1]
    obtain ⟨_, htold, _⟩ := (s.dropAccess tag).makes_reportAll k
      (if failed then [.regionFault a.role a.selector .memory a.offset] else [])
    have hframe : r1.bindings = s.bindings ∧ r1.houseFault = s.houseFault ∧ r1.notice = s.notice
        ∧ r1.houseTime = s.houseTime ∧ s.nextTag ≤ r1.nextTag := by
      rw [show r1 = r.modUnit k _ from rfl, State.modUnit_def, hr.rest]
      exact ⟨honly.bindings, honly.houseFault, honly.notice, honly.houseTime, htold.nextTag⟩
    obtain ⟨hbindings, hfault, hnotice, htime, htag⟩ := hframe
    by_cases hlast : b.phase = .ending ∧ left = []
    · obtain ⟨hphase, hnone⟩ := hlast
      let acking := r1.modUnit k fun u =>
        { u with ackGeneration := b.generation, batch := some { waiting with phase := .acking } }
      have hdone : r.batchDone k tag = (acking.access k .showRecord 320 4 (leWord b.generation) .ackWrite).1 :=
        State.settleBatch_acknowledges hb1 hphase hnone
      have hx' : acking.binding k .showRecord = some x := (State.binding_congr hbindings k .showRecord).trans hx
      obtain ⟨hissued, haud', y, hmakes, _⟩ := State.access_showRecord hx' hl (show 320 + 4 ≤ 512 by decide)
        (leWord b.generation) .ackWrite
      have hall := State.onlyAud_access acking k .showRecord 320 4 (leWord b.generation) .ackWrite
      have hacking : acking.aud k = { s.aud k with
          unit := { (s.aud k).unit with
            ackGeneration := b.generation, batch := some { b with outstanding := [], phase := .acking } }
          writer := (told.aud k).writer } := by
        rw [show acking = r1.modUnit k _ from rfl, State.modUnit_def, State.aud_modAud_same, hr1, ← hnone]
      have hlength : r1.inFlight.length = told.inFlight.length := hr.length
      rw [← hdone] at hissued haud' hmakes hall
      refine ⟨_, hexec, fun j hj => (haud' j).trans ((State.aud_modAud_ne _ _ hj).trans (hothers j hj)),
        hall.bindings.trans hbindings, hall.houseFault.trans hfault, hall.notice.trans hnotice, ?_, ?_,
        fun _ _ => ⟨?_, ?_, ?_⟩, fun g => absurd g (by rw [not_or, not_not, not_not]; exact ⟨hphase, hnone⟩)⟩
      · rw [haud', hacking]
      · rw [hmakes.inFlight, ← hlength]
        exact (congrArg _ (List.take_left (l₁ := r1.inFlight))).trans hr.flight
      · rw [haud', hacking]
      · rw [hmakes.inFlight, List.length_append]
        exact congrArg (· + 1) hlength
      · exact hissued.before htag htime (State.binding_congr hbindings k .showRecord)
    · have hgoes : b.phase ≠ .ending ∨ left ≠ [] := by
        by_cases hphase : b.phase = .ending
        · exact .inr fun g => hlast ⟨hphase, g⟩
        · exact .inl hphase
      have hdone : r.batchDone k tag = r1 := State.settleBatch_goesOn hb1 hgoes
      rw [hdone] at hexec
      refine ⟨_, hexec, hothers, hbindings, hfault, hnotice, by rw [hr1], ?_, fun g1 g2 => absurd ⟨g1, g2⟩ hlast,
        fun _ => ⟨by rw [hr1], hr.length⟩⟩
      rw [← hr.length]
      exact (congrArg _ List.take_length).trans hr.flight
  · intro tag ok a y c s h hc hy hlt hcommon
    have hkeeps {sort : Purpose → Bool} (hsort : sort a.purpose = true) :
        s.endWrite tag sort ok = s.keepAnswer tag (a.answer.getD ok) := by
      obtain ⟨_, hkept⟩ | ⟨hturn, _⟩ := State.endWrite_cases h hsort ok
      · exact hkept
      · exact absurd hcommon ((s.mustWait_eq_false_iff a).mp hturn y hy (by rw [h.tagged]; exact hlt))
    have hexec : exec c s = .next (s.keepAnswer tag (a.answer.getD ok)) := by
      simp only [List.mem_cons, List.not_mem_nil, or_false, Prod.mk.injEq] at hc
      obtain ⟨rfl, hp⟩ | ⟨rfl, hp⟩ | ⟨rfl, hp⟩ | ⟨rfl, hp⟩ | ⟨rfl, hp⟩ | ⟨rfl, hp⟩ | ⟨rfl, hp⟩ := hc <;>
        exact congrArg Host.Outcome.next (hkeeps (by rw [hp]; rfl))
    have hanswered (l : List Access) (z : Access)
        (hz : z ∈ l.map fun w => if w.tag = tag then { w with answer := some (a.answer.getD ok) } else w) :
        ∃ w ∈ l, z = { w with answer := if w.tag = tag then some (a.answer.getD ok) else w.answer } := by
      obtain ⟨w, hw, rfl⟩ := List.mem_map.mp hz
      refine ⟨w, hw, ?_⟩
      by_cases htag : w.tag = tag
      · rw [if_pos htag, if_pos htag]
      · rw [if_neg htag, if_neg htag]
    have htags (l : List Access) : (l.map fun w => if w.tag = tag then { w with answer := some (a.answer.getD ok) } else w).map
        Access.tag = l.map Access.tag := by
      rw [List.map_map]
      refine List.map_congr_left fun w _ => ?_
      by_cases htag : w.tag = tag
      · simp only [Function.comp, if_pos htag]
      · simp only [Function.comp, if_neg htag]
    refine ⟨_, hexec, ?_⟩
    unfold State.keepAnswer
    cases hok : a.answer.getD ok with
    | true =>
      rw [hok] at hanswered htags
      refine ⟨rfl, htags s.inFlight, fun z hz => ?_⟩
      obtain ⟨w, hw, rfl⟩ := hanswered s.inFlight z hz
      exact ⟨w, hw, rfl, rfl⟩
    | false =>
      rw [hok] at hanswered htags
      refine ⟨rfl, ?_, fun z hz => ?_⟩
      · refine Eq.trans ?_ (htags s.inFlight)
        exact List.map_map
      · obtain ⟨y, hy, rfl⟩ := List.mem_map.mp hz
        obtain ⟨w, hw, rfl⟩ := hanswered s.inFlight y hy
        exact ⟨w, hw, rfl, rfl⟩
  · intro a ok s hpending ha hanswer hturn
    have hcomes : s.turnCome a = some (a.endCommand ok) := by
      unfold State.turnCome
      rw [(s.mustWait_eq_false_iff a).mpr hturn, hanswer]
      rfl
    have hwork : a.endCommand ok ∈ s.work := by
      unfold State.work
      simp only [List.append_assoc]
      exact List.mem_append_left _ (List.mem_filterMap.mpr ⟨a, ha, hcomes⟩)
    have hstep : step s = .next { s with pending := s.work } :=
      (idleStepPostsWorkOrPassesATick.1 s hpending).1 (List.ne_nil_of_mem hwork)
    refine ⟨_, hstep, fun _ => rfl, rfl, ?_⟩
    unfold Access.endCommand at hwork
    cases hp : a.purpose <;> rw [hp] at hwork <;> exact hwork
  · intro k role offset length purpose x s hx hin hlength hdata
    exact State.access_reads hx (by omega) purpose hlength hdata

end Sys2Proof.Machine
end

section
/-! SUPPORT. Claims: the end of a descriptor read and of a cue list header read (R36, R136, R137, R153). -/

namespace Sys2Proof.Machine

/-! ## A result decided after other accesses (R153) -/

/-- The accesses whose end a batch waits for. -/
def Access.isAwaited (a : Access) : Bool := [Purpose.resultWrite, .flagWrite, .bindingWrite].contains a.purpose

section Goes
variable {s s' t : State} {k : Aud} {b : Batch} {made : List Access}
  (hflight : s'.inFlight = s.inFlight ++ made) (hnone : ∀ a ∈ made, a.purpose ≠ .resultWrite)
  (htag : s.nextTag ≤ s'.nextTag) (htime : s'.houseTime = s.houseTime)
  (hbinding : s'.binding k .showRecord = s.binding k .showRecord)

include hflight hnone htag htime hbinding

/-- A batch that waits for the writes made so far goes on as from the state before them. -/
theorem State.GoesOn.after (hprefix : s'.inFlight <+: t.inFlight)
    (h : s'.GoesOn t k { b with outstanding := b.outstanding ++ (made.filter Access.isAwaited).map Access.tag }) :
    s.GoesOn t k b := by
  obtain ⟨more, hmore⟩ := hprefix
  have hdrop' : t.inFlight.drop s'.inFlight.length = more := by rw [← hmore, List.drop_left]
  have hdrop : t.inFlight.drop s.inFlight.length = made ++ more := by
    rw [← hmore, hflight, List.append_assoc, List.drop_left]
  have hzero : made.filter (fun a => a.purpose == .resultWrite && a.length == 1) = [] :=
    List.filter_eq_nil_iff.mpr fun a ha g => hnone a ha (beq_iff_eq.mp (Bool.and_eq_true_iff.mp g).1)
  unfold State.GoesOn at h ⊢
  simp only [hdrop', hdrop, List.filter_append, hzero, List.nil_append, List.map_append] at h ⊢
  obtain ⟨hbatch, hperm, hissued⟩ := h
  refine ⟨hbatch.trans ?_, hperm, fun hends n hn h8 => (hissued hends n hn h8).before htag htime hbinding⟩
  rw [List.append_assoc]
  rfl

/-- A result decided after other accesses of the same command. -/
theorem State.decides {x : Binding} (hx : s.binding k .showRecord = some x) (hl : 511 ≤ x.limit.toNat)
    (hb : (s'.aud k).unit.batch
      = some { b with outstanding := b.outstanding ++ (made.filter Access.isAwaited).map Access.tag })
    (hn : b.next < 8) (conditions : Byte) (reply : List Byte) :
    let t := s'.decide k conditions reply
    s.GoesOn t k b ∧ s.ResultIssued t k b.next conditions (padTo 16 reply) ∧ State.OnlyAud k s' t
      ∧ t.aud k = { s'.aud k with unit := { (s'.aud k).unit with batch := (t.aud k).unit.batch } }
      ∧ s'.inFlight <+: t.inFlight := by
  intro t
  have hx' : s'.binding k .showRecord = some x := hbinding.trans hx
  have hgoes := State.decide_goesOn conditions reply hx' hl hb hn
  obtain ⟨honly, hissued, more, haud⟩ := State.decide_spec conditions reply hx' hl hb (Nat.le_of_lt_succ hn)
  have hprefix : s'.inFlight <+: t.inFlight := by
    obtain ⟨added, hadded⟩ := honly.inFlight
    exact ⟨added, hadded.symm⟩
  refine ⟨hgoes.after hflight hnone htag htime hbinding hprefix, hissued.before htag htime hbinding, honly, ?_, hprefix⟩
  rw [show t = s'.decide k conditions reply from rfl, haud]

end Goes

/-- A result decided after reports, and after a change of the blocks that leaves the unit. -/
theorem State.decides_reported {s : State} {k : Aud} {b : Batch} {x : Binding} (hx : s.binding k .showRecord = some x)
    (hl : 511 ≤ x.limit.toNat) (hb : (s.aud k).unit.batch = some b) (hn : b.next < 8) (l : List Report)
    {f : Auditorium → Auditorium} (hf : ∀ a, (f a).unit = a.unit) (conditions : Byte) (reply : List Byte) :
    let s' := (s.reportAll k l).modAud k f
    let t := s'.decide k conditions reply
    s.GoesOn t k b ∧ s.ResultIssued t k b.next conditions (padTo 16 reply) ∧ State.OnlyAud k s' t
      ∧ t.aud k = { s'.aud k with unit := { (s.aud k).unit with batch := (t.aud k).unit.batch } }
      ∧ (s.reportAll k l).inFlight <+: t.inFlight := by
  intro s' t
  obtain ⟨made, hmakes, hreports⟩ := s.makes_reportAll k l
  have hpurpose (a : Access) (ha : a ∈ made) : a.purpose = .reportWrite := (hreports a ha).2
  have hunit : (s'.aud k).unit = (s.aud k).unit := by
    rw [show s' = (s.reportAll k l).modAud k f from rfl, State.aud_modAud_same, hf, State.reportAll_unit]
  have hawaited : made.filter Access.isAwaited = [] :=
    List.filter_eq_nil_iff.mpr fun a ha => by rw [Access.isAwaited, hpurpose a ha]; decide
  obtain ⟨hgoes, hissued, honly, haud, hprefix⟩ := State.decides (s := s) (s' := s') (b := b) hmakes.inFlight
    (fun a ha => by rw [hpurpose a ha]; exact fun g => nomatch g) hmakes.nextTag hmakes.houseTime
    (State.binding_congr hmakes.bindings k .showRecord) hx hl (by rw [hunit, hb, hawaited]; simp) hn conditions reply
  rw [hunit] at haud
  exact ⟨hgoes, hissued, honly, haud, hprefix⟩

/-! ## Conditions and replies (R155, R192) -/

theorem tagResetBit_eq (tagReset : Bool) : tagResetBit tagReset = if tagReset then 0x40#8 else 0#8 := by
  cases tagReset <;> rfl

theorem padTo_idem (n : Nat) (d : List Byte) : padTo n (padTo n d) = padTo n d := by
  simp [padTo]

theorem padTo_bindReply (capacity : Word) (epoch : Byte) :
    padTo 16 (bindReply capacity epoch) = leWord capacity ++ epoch :: List.replicate 11 0 := by
  unfold bindReply
  rw [padTo_idem]
  simp [padTo, List.take_append]

theorem padTo_zeroReply : padTo 16 zeroReply = List.replicate 16 0 := by
  simp [padTo, zeroReply]

/-! ## The cue list header (R36, R137) -/

theorem listCountOf_eq (header limit : Word) :
    listCountOf header limit = min (min header.toNat ((limit.toNat - 31) / 32)) 65535 := by
  unfold listCountOf
  rw [show limit.toNat + 1 - 32 = limit.toNat - 31 by omega]

section Header
variable {s : State} {k : Aud} {tag : Nat} {a : Access}
  (hrunning : s.partState = .running) (h : s.InFlightAs tag a) (haud : a.aud = some k)
  (hp : a.purpose = .headerRead) (hcurrent : s.isCurrent a = true)
include hrunning h haud hp hcurrent

theorem State.InFlightAs.headerRead_ok {cues : Binding} (hcues : s.binding k .cues = some cues) (d : List Byte) :
    exec (.cueListHeaderReadComplete tag (.ok d)) s = .next ((s.dropAccess tag).headerEnded k tag
      (listCountOf (wordAt (a.received d) 0) cues.limit)) := by
  refine congrArg Host.Outcome.next ((h.endRead_ok (by rw [hp]; rfl) d).trans ?_)
  rw [State.endAccess_running (s := s.dropAccess tag) hrunning]
  have hbinding : (s.dropAccess tag).binding k .cues = some cues := hcues
  unfold State.readDone
  rw [haud]
  simp only [hp, h.tagged, hbinding]
  exact if_pos hcurrent

theorem State.InFlightAs.headerRead_fails {c : Instr} (hc : s.Ends a c true) : exec c s
    = .next (((s.dropAccess tag).reportAll k [.regionFault a.role a.selector .memory a.offset]).headerEnded k tag 0) := by
  rw [h.readFails_running hrunning haud (by rw [hp]; rfl) (by rw [hp]; exact fun g => nomatch g) hc]
  unfold State.blockFailed
  simp only [hp, h.tagged]
  rw [State.reportAll_isCurrent]
  exact congrArg Host.Outcome.next (if_pos hcurrent)

end Header

/-- A header read that the batch waits for settles the list count and the result of the BIND. -/
theorem State.headerEnded_awaited {s : State} {k : Aud} {tag : Nat} {b : Batch} {tagReset : Bool}
    (hb : (s.aud k).unit.batch = some b) (hphase : b.phase = .counting tag tagReset) (count : Nat) :
    s.headerEnded k tag count
      = (s.modAud k fun a => { a with seq := { a.seq with listCount := count } }).decide k
          (0x01#8 ||| if tagReset then 0x40#8 else 0#8)
          (bindReply (BitVec.ofNat 32 count) (s.aud k).epochs.cues) := by
  unfold State.headerEnded
  rw [hb]
  simp only [Option.map_some, hphase, if_true]
  unfold State.settleHeader
  rw [tagResetBit_eq]
  rfl

/-- Settles O33. -/
theorem headerReadLatchesTheListCount : Obligations.HeaderReadLatchesTheListCount := by
  unfold Obligations.HeaderReadLatchesTheListCount
  refine ⟨?_, ?_⟩
  · intro k tag a bytes b x cues tagReset s hrunning h haud hp hcurrent hb hphase hn hx hl hcues count
    have hexec := h.headerRead_ok hrunning haud hp hcurrent hcues bytes
    rw [listCountOf_eq, State.headerEnded_awaited (s := s.dropAccess tag) hb hphase] at hexec
    obtain ⟨hgoes, hissued, honly, hall, _⟩ := State.decides_reported (s := s.dropAccess tag) hx hl hb hn []
      (f := fun a => { a with seq := { a.seq with listCount := count } }) (fun _ => rfl)
      (0x01#8 ||| if tagReset then 0x40#8 else 0#8) (bindReply (BitVec.ofNat 32 count) (s.aud k).epochs.cues)
    rw [padTo_bindReply] at hissued
    rw [State.aud_modAud_same] at hall
    refine ⟨_, hexec, congrArg (fun a : Auditorium => a.seq.listCount) hall, hissued, hgoes, hall, honly.bindings,
      fun j hj => (honly.others j hj).trans (State.aud_modAud_ne _ _ hj)⟩
  · intro k tag a c b x cues tagReset s hrunning h haud hp hrole hselector hoffset hends hcurrent hb hphase hn hx hl hcues
      faulted
    have hexec := h.headerRead_fails hrunning haud hp hcurrent hends
    rw [hrole, hselector, hoffset] at hexec
    have hpre : State.OnlyAud k (s.dropAccess tag) faulted := State.onlyAud_reportAll _ k _
    have haudk : faulted.aud k = { s.aud k with writer := (faulted.aud k).writer } := State.reportAll_aud _ k _ k
    have hfb : (faulted.aud k).unit.batch = some b := by rw [haudk]; exact hb
    have hexec : exec c s = .next (faulted.headerEnded k tag 0) := hexec
    have hepoch : (faulted.aud k).epochs = (s.aud k).epochs := (congrArg Auditorium.epochs haudk :)
    rw [State.headerEnded_awaited hfb hphase, hepoch] at hexec
    obtain ⟨hgoes, hissued, honly, hall, hprefix⟩ := State.decides_reported (s := s.dropAccess tag) hx hl hb hn
      [.regionFault .cues cues.selector .memory 0]
      (f := fun a => { a with seq := { a.seq with listCount := 0 } }) (fun _ => rfl)
      (0x01#8 ||| if tagReset then 0x40#8 else 0#8) (bindReply (BitVec.ofNat 32 0) (s.aud k).epochs.cues)
    rw [padTo_bindReply] at hissued
    rw [State.aud_modAud_same] at hall
    refine ⟨_, hexec, fun j hj => (honly.others j hj).trans ((State.aud_modAud_ne _ _ hj).trans (hpre.others j hj)),
      honly.bindings.trans hpre.bindings, hissued, hprefix, hgoes, ?_⟩
    refine hall.trans ?_
    rw [State.reportAll_aud]
    rfl

end Sys2Proof.Machine
end

section
/-! SUPPORT. Claims: the descriptor test, the map step and the binding (R134 to R137). -/

namespace Sys2Proof.Machine

/-! ## The descriptor test (R134) -/

/-- The descriptor passes every test of its role. -/
def Descriptor.Fits (d : Descriptor) (role : Role) : Prop :=
  d.present = true ∧ d.kind = role.kind ∧ role.minLimit ≤ d.limit.toNat ∧ d.base.toNat % 64 = 0

/-- The first test that fails. -/
def Descriptor.cause (d : Descriptor) (role : Role) : Cause :=
  if d.present = false then .notPresent else if d.kind ≠ role.kind then .wrongKind
  else if d.limit.toNat < role.minLimit then .tooSmall else .misaligned

theorem Descriptor.unfit_of_fits {d : Descriptor} {role : Role} (h : d.Fits role) : d.unfit role = none := by
  obtain ⟨hpresent, hkind, hlimit, hbase⟩ := h
  unfold Descriptor.unfit
  rw [if_neg (by rw [hpresent]; decide), if_neg (not_not_intro hkind), if_neg (Nat.not_lt.mpr hlimit),
    if_neg (not_not_intro hbase)]

theorem Descriptor.unfit_of_not_fits {d : Descriptor} {role : Role} (h : ¬d.Fits role) :
    d.unfit role = some (d.cause role) := by
  unfold Descriptor.unfit Descriptor.cause
  cases hpresent : d.present with
  | false => rfl
  | true =>
    simp only [Bool.not_true, Bool.false_eq_true, if_false, reduceCtorEq]
    by_cases hkind : d.kind = role.kind
    · rw [if_neg (not_not_intro hkind), if_neg (not_not_intro hkind)]
      by_cases hlimit : d.limit.toNat < role.minLimit
      · rw [if_pos hlimit, if_pos hlimit]
      · rw [if_neg hlimit, if_neg hlimit, if_pos fun hbase => h ⟨hpresent, hkind, Nat.not_lt.mp hlimit, hbase⟩]
    · rw [if_pos hkind, if_pos hkind]

/-! ## The block that serves a role (R137) -/

/-- R137: the blocks of an auditorium after the one that serves `role` has prepared itself. -/
def Auditorium.prepared (a : Auditorium) (role : Role) (limit : Word) : Auditorium :=
  match role with
  | .showRecord => a
  | .cues => { a with seq := a.seq.newList }
  | .payload => a
  | .narrationA => { a with mixer := a.mixer.modRing .a fun r => r.bindTo (ringCapacity limit) }
  | .narrationB => { a with mixer := a.mixer.modRing .b fun r => r.bindTo (ringCapacity limit) }
  | .bed => { a with mixer := a.mixer.modRing .bed fun r => r.bindTo (ringCapacity limit) }
  | .reports => { a with writer := a.writer.bindTo (reportCapacity limit) }

theorem State.prepareRole_eq (s : State) (k : Aud) (role : Role) (limit : Word) :
    s.prepareRole k role limit = s.modAud k fun a => a.prepared role limit := by
  cases role with
  | showRecord => exact (s.modAud_id k).symm
  | payload => exact (s.modAud_id k).symm
  | cues => rfl
  | narrationA => rfl
  | narrationB => rfl
  | bed => rfl
  | reports => rfl

section Prepared
variable (a : Auditorium) (role : Role) (limit : Word)

@[simp] theorem Auditorium.prepared_clock : (a.prepared role limit).clock = a.clock := by cases role <;> rfl

@[simp] theorem Auditorium.prepared_link : (a.prepared role limit).link = a.link := by cases role <;> rfl

@[simp] theorem Auditorium.prepared_builder : (a.prepared role limit).builder = a.builder := by cases role <;> rfl

@[simp] theorem Auditorium.prepared_unit : (a.prepared role limit).unit = a.unit := by cases role <;> rfl

@[simp] theorem Auditorium.prepared_epochs : (a.prepared role limit).epochs = a.epochs := by cases role <;> rfl

theorem Auditorium.prepared_seq (h : role ≠ .cues) : (a.prepared role limit).seq = a.seq := by
  cases role with
  | cues => exact absurd rfl h
  | showRecord => rfl
  | payload => rfl
  | narrationA => rfl
  | narrationB => rfl
  | bed => rfl
  | reports => rfl

/-- An audio ring begins a fresh stream. -/
theorem Auditorium.prepared_ring {name : RingName} (h : name.role = role) :
    (a.prepared role limit).mixer.ring name = (a.mixer.ring name).bindTo (ringCapacity limit) := by
  subst h
  cases name <;> rfl

end Prepared

/-! ## The map entry and the binding bytes (R135, R137) -/

/-- The map entry of a claim. -/
def State.claimed (s : State) (k : Aud) (role : Role) (selector : Byte) (d : Descriptor) : Binding :=
  { selector := selector, aud := k, role := role, epoch := (s.aud k).epochs.get role + 1, base := d.base
    limit := d.limit }

theorem Epochs.get_raise (e : Epochs) (role : Role) : (e.raise role).get role = e.get role + 1 := by
  cases role <;> rfl

/-- The state in which a claim is bound, its binding bytes written and awaited, and its block ready. -/
def State.bound (s : State) (k : Aud) (role : Role) (selector : Byte) (d : Descriptor) : State :=
  let s1 := s.addBinding k role selector d
  let s2 := (s1.writeBindingBytes (some k) role selector (boundBytes role k) .bindingWrite).await k (some s1.nextTag)
  s2.prepareRole k role d.limit

/-- The write of a descriptor's binding bytes is issued. -/
theorem State.writeBindingBytes_makes (s : State) (owner : Option Aud) (role : Role) (selector : Byte) (bytes : List Byte)
    (purpose : Purpose) : ∃ w, (s.writeBindingBytes owner role selector bytes purpose).inFlight = s.inFlight ++ [w]
    ∧ (s.writeBindingBytes owner role selector bytes purpose).nextTag = s.nextTag + 1
    ∧ (s.writeBindingBytes owner role selector bytes purpose).houseTime = s.houseTime
    ∧ w.tag = s.nextTag ∧ w.purpose = purpose
    ∧ ∀ t : State, w ∈ t.inFlight → s.TableIssued t owner role selector 14 2 bytes purpose := by
  unfold State.writeBindingBytes State.tableAccess State.issue
  dsimp only
  refine ⟨_, rfl, rfl, rfl, rfl, rfl, fun t ht => ⟨_, ht, ?_⟩⟩
  exact ⟨Nat.le_refl _, rfl, rfl, rfl, rfl, rfl, rfl, rfl, rfl⟩

section Bound
variable (s : State) (k : Aud) (role : Role) (selector : Byte) (d : Descriptor)

theorem State.bound_aud : (s.bound k role selector d).aud k
    = { s.aud k with
          epochs := (s.aud k).epochs.raise role, unit := (s.aud k).unit.waitFor [s.nextTag] }.prepared role d.limit := by
  unfold State.bound
  rw [State.prepareRole_eq, State.aud_modAud_same]
  refine congrArg (fun a : Auditorium => a.prepared role d.limit) ?_
  unfold State.await
  rw [State.modUnit_def, State.aud_modAud_same]
  have haud : ((s.addBinding k role selector d).writeBindingBytes (some k) role selector (boundBytes role k)
      .bindingWrite).aud k = { s.aud k with epochs := (s.aud k).epochs.raise role } :=
    State.aud_modAud_same s k fun a => { a with epochs := (s.aud k).epochs.raise role }
  rw [haud]
  rfl

theorem State.bound_aud_ne {j : Aud} (hj : j ≠ k) : (s.bound k role selector d).aud j = s.aud j := by
  unfold State.bound
  rw [State.prepareRole_eq, State.aud_modAud_ne _ _ hj]
  exact (State.aud_modAud_ne _ _ hj).trans
    (State.aud_modAud_ne s (fun a => { a with epochs := (s.aud k).epochs.raise role }) hj)

theorem State.bound_bindings :
    (s.bound k role selector d).bindings = s.bindings ++ [s.claimed k role selector d] := by
  unfold State.bound State.await
  rw [State.prepareRole_eq, State.modAud_bindings, State.modUnit_def, State.modAud_bindings]
  have hentry : (s.addBinding k role selector d).bindings = s.bindings ++ [s.claimed k role selector d] := by
    simp only [State.addBinding, Epochs.get_raise, State.claimed]
  exact hentry

/-- The write of the binding bytes is the one access issued. -/
theorem State.bound_makes : ∃ w, (s.bound k role selector d).inFlight = s.inFlight ++ [w]
    ∧ (s.bound k role selector d).nextTag = s.nextTag + 1 ∧ (s.bound k role selector d).houseTime = s.houseTime
    ∧ w.tag = s.nextTag ∧ w.purpose = .bindingWrite
    ∧ ∀ t : State, w ∈ t.inFlight → s.TableIssued t (some k) role selector 14 2
        [0x80#8 ||| role.code, BitVec.ofNat 8 k.val] .bindingWrite := by
  obtain ⟨w, hflight, htag, htime, hwtag, hwpurpose, htable⟩ := (s.addBinding k role selector d).writeBindingBytes_makes
    (some k) role selector (boundBytes role k) .bindingWrite
  unfold State.bound State.await
  rw [State.prepareRole_eq, State.modUnit_def]
  exact ⟨w, hflight, htag, htime, hwtag, hwpurpose, htable⟩

theorem State.bound_binding {j : Aud} {other : Role} {x : Binding} (hx : s.binding j other = some x) :
    (s.bound k role selector d).binding j other = some x := by
  unfold State.binding at hx ⊢
  rw [State.bound_bindings, List.find?_append, hx]
  rfl

theorem State.bound_binding_new (h : s.binding k role = none) :
    (s.bound k role selector d).binding k role = some (s.claimed k role selector d) := by
  unfold State.binding at h ⊢
  rw [State.bound_bindings, List.find?_append, h]
  simp [State.claimed]

end Bound

/-! ## A claim's descriptor has been read (R136) -/

section ClaimReads
variable {s : State} {k : Aud} {tag : Nat} {a : Access}
  (hrunning : s.partState = .running) (h : s.InFlightAs tag a) (haud : a.aud = some k) (hp : a.purpose = .claimRead)
include hrunning h haud hp

theorem State.InFlightAs.claimRead_ok (d : List Byte) :
    exec (.descriptorReadComplete tag (.ok d)) s = .next ((s.dropAccess tag).claimRead k tag (a.received d)) := by
  refine congrArg Host.Outcome.next ((h.endRead_ok (by rw [hp]; rfl) d).trans ?_)
  rw [State.endAccess_running (s := s.dropAccess tag) hrunning]
  unfold State.readDone
  rw [haud]
  simp only [hp, h.tagged]

theorem State.InFlightAs.claimRead_fails {c : Instr} (hc : s.Ends a c true) : exec c s
    = .next (((s.dropAccess tag).reportAll k [.regionFault a.role a.selector .memory a.offset]).claimFailed k tag) := by
  rw [h.readFails_running hrunning haud (by rw [hp]; rfl) (by rw [hp]; exact fun g => nomatch g) hc]
  unfold State.blockFailed
  simp only [hp, h.tagged]

end ClaimReads

section Awaited
variable {s : State} {k : Aud} {tag : Nat} {b : Batch} {role : Role} {selector : Byte} {held allowed tagReset : Bool}
  (hb : (s.aud k).unit.batch = some b) (hphase : b.phase = .claiming tag role selector held allowed tagReset)
include hb hphase

theorem State.claimRead_unfit {bytes : List Byte} (h : ¬(parseDescriptor bytes).Fits role) :
    s.claimRead k tag bytes = (s.reportAll k [.regionFault role selector ((parseDescriptor bytes).cause role)
        (16 * selector.toNat)]).decide k (0x11#8 ||| if tagReset then 0x40#8 else 0#8) zeroReply := by
  unfold State.claimRead
  rw [hb]
  simp only [Option.map_some, hphase, if_true, Descriptor.unfit_of_not_fits h, tagResetBit_eq]
  rfl

theorem State.claimRead_fits {bytes : List Byte} (h : (parseDescriptor bytes).Fits role) :
    s.claimRead k tag bytes = s.mapStep k role selector held allowed tagReset (parseDescriptor bytes) := by
  unfold State.claimRead
  rw [hb]
  simp only [Option.map_some, hphase, if_true, Descriptor.unfit_of_fits h]

theorem State.claimFailed_awaited :
    s.claimFailed k tag = s.decide k (0x11#8 ||| if tagReset then 0x40#8 else 0#8) zeroReply := by
  unfold State.claimFailed
  rw [hb]
  simp only [Option.map_some, hphase, if_true, tagResetBit_eq]
  rfl

end Awaited

/-! ## The map step (R136, step 3) -/

section MapStep
variable {s : State} {k : Aud} {role : Role} {selector : Byte} {held allowed tagReset : Bool} {d : Descriptor}

theorem State.selectorTaken_iff (s : State) (selector : Byte) :
    s.selectorTaken selector = true ↔ ∃ y ∈ s.bindings, y.selector = selector := by
  simp [State.selectorTaken]

theorem State.mapStep_busy (h : ∃ y ∈ s.bindings, y.selector = selector) :
    s.mapStep k role selector held allowed tagReset d
      = s.decide k (0x21#8 ||| if tagReset then 0x40#8 else 0#8) zeroReply := by
  unfold State.mapStep
  rw [if_pos ((s.selectorTaken_iff selector).mpr h), tagResetBit_eq]
  rfl

theorem State.mapStep_illegal (hfree : ∀ y ∈ s.bindings, y.selector ≠ selector) (h : held = true ∨ allowed = false) :
    s.mapStep k role selector held allowed tagReset d
      = s.decide k (0x03#8 ||| if tagReset then 0x40#8 else 0#8) zeroReply := by
  unfold State.mapStep
  have hno : ¬s.selectorTaken selector = true := fun g => by
    obtain ⟨y, hy, heq⟩ := (s.selectorTaken_iff selector).mp g
    exact hfree y hy heq
  rw [if_neg hno, if_pos (by rw [Bool.or_eq_true, Bool.not_eq_true']; exact h), tagResetBit_eq]
  rfl

theorem State.mapStep_bound (hfree : ∀ y ∈ s.bindings, y.selector ≠ selector) (hheld : held = false)
    (hallowed : allowed = true) : s.mapStep k role selector held allowed tagReset d
      = (s.bound k role selector d).replyBind k role d.limit tagReset := by
  unfold State.mapStep
  have hno : ¬s.selectorTaken selector = true := fun g => by
    obtain ⟨y, hy, heq⟩ := (s.selectorTaken_iff selector).mp g
    exact hfree y hy heq
  rw [if_neg hno, if_neg (by rw [hheld, hallowed]; decide)]
  rfl

end MapStep

/-- A claim that is refused, after its reports: no block but the Report Writer and the batch changes, nor the map. -/
theorem State.refuses {s : State} {k : Aud} {b : Batch} {x : Binding} (hx : s.binding k .showRecord = some x)
    (hl : 511 ≤ x.limit.toNat) (hb : (s.aud k).unit.batch = some b) (hn : b.next < 8) (l : List Report)
    (conditions : Byte) :
    let t := (s.reportAll k l).decide k conditions zeroReply
    s.GoesOn t k b ∧ s.ResultIssued t k b.next conditions (List.replicate 16 0) ∧ t.bindings = s.bindings
      ∧ (∀ j, j ≠ k → t.aud j = s.aud j)
      ∧ t.aud k = { s.aud k with
          unit := { (s.aud k).unit with batch := (t.aud k).unit.batch }, writer := ((s.reportAll k l).aud k).writer }
      ∧ (s.reportAll k l).inFlight <+: t.inFlight := by
  intro t
  obtain ⟨hgoes, hissued, honly, haud, hprefix⟩ := State.decides_reported hx hl hb hn l (f := fun a => a) (fun _ => rfl)
    conditions zeroReply
  have hreport := s.onlyAud_reportAll k l
  rw [State.modAud_id] at hgoes hissued honly haud hprefix
  rw [padTo_zeroReply] at hissued
  refine ⟨hgoes, hissued, honly.bindings.trans hreport.bindings,
    fun j hj => (honly.others j hj).trans (hreport.others j hj), haud.trans ?_, hprefix⟩
  rw [State.reportAll_aud]

/-! ## A claim bound (R137) -/

section Binds
variable {s : State} {k : Aud} {b : Batch} {x : Binding} {role : Role} {d : Descriptor}
  (hx : s.binding k .showRecord = some x) (hl : 511 ≤ x.limit.toNat) (hb : (s.aud k).unit.batch = some b)
  (hn : b.next < 8) (selector : Byte) (tagReset : Bool)
include hb

/-- The batch of a bound claim waits for the write of the binding bytes. -/
theorem State.bound_batch : ((s.bound k role selector d).aud k).unit.batch
    = some { b with outstanding := b.outstanding ++ [s.nextTag] } := by
  rw [State.bound_aud, Auditorium.prepared_unit]
  simp [DirectiveUnit.waitFor, hb]

include hx hl hn

/-- The result of a BIND of any role but CUES. -/
theorem State.binds (hrole : role ≠ .cues) :
    let s' := s.bound k role selector d
    let t := s'.replyBind k role d.limit tagReset
    s.GoesOn t k b ∧ s.ResultIssued t k b.next (0x01#8 ||| if tagReset then 0x40#8 else 0#8)
        (leWord (replyCapacity role d.limit) ++ ((s.aud k).epochs.get role + 1) :: List.replicate 11 0)
      ∧ State.OnlyAud k s' t
      ∧ t.aud k = { s'.aud k with unit := { (s'.aud k).unit with batch := (t.aud k).unit.batch } }
      ∧ s'.inFlight <+: t.inFlight := by
  intro s' t
  obtain ⟨w, hflight, htag, htime, hwtag, hwpurpose, _⟩ := s.bound_makes k role selector d
  have hreply : t = s'.decide k (0x01#8 ||| if tagReset then 0x40#8 else 0#8)
      (bindReply (replyCapacity role d.limit) ((s.aud k).epochs.get role + 1)) := by
    have hepoch : (s'.aud k).epochs.get role = (s.aud k).epochs.get role + 1 := by
      rw [State.bound_aud, Auditorium.prepared_epochs, Epochs.get_raise]
    rw [show t = s'.replyBind k role d.limit tagReset from rfl, State.replyBind, if_neg hrole, tagResetBit_eq, hepoch]
    rfl
  have hawaited : [w].filter Access.isAwaited = [w] := List.filter_eq_self.mpr fun a ha => by
    rw [List.mem_singleton.mp ha, Access.isAwaited, hwpurpose]
    decide
  have hgoes := State.decides (s := s) (s' := s') (b := b) (made := [w]) hflight
    (fun a ha => by rw [List.mem_singleton.mp ha, hwpurpose]; exact fun g => nomatch g)
    (by rw [htag]; exact Nat.le_succ _) htime ((s.bound_binding k role selector d hx).trans hx.symm) hx hl
    (by rw [hawaited, List.map_singleton, hwtag]; exact State.bound_batch hb selector) hn
    (0x01#8 ||| if tagReset then 0x40#8 else 0#8)
    (bindReply (replyCapacity role d.limit) ((s.aud k).epochs.get role + 1))
  rw [padTo_bindReply, ← hreply] at hgoes
  exact hgoes

/-- What a BIND of CUES leaves alone, whatever becomes of its header read. -/
theorem State.binds_cues_rest :
    let s' := s.bound k .cues selector d
    let t := s'.replyBind k .cues d.limit tagReset
    State.OnlyAud k s' t ∧ (t.aud k).clock = (s.aud k).clock ∧ (t.aud k).link = (s.aud k).link
      ∧ (t.aud k).builder = (s.aud k).builder ∧ (t.aud k).unit.showState = (s.aud k).unit.showState
      ∧ (t.aud k).epochs = (s.aud k).epochs.raise .cues := by
  intro s' t
  have hbound : s'.aud k = _ := s.bound_aud k .cues selector d
  have hx' : s'.binding k .showRecord = some x := s.bound_binding k .cues selector d hx
  have hb' := State.bound_batch (k := k) (role := .cues) (d := d) hb selector
  have hsettles (u : State) (hu : State.OnlyAud k s' u)
      (haud : u.aud k = { s'.aud k with writer := (u.aud k).writer }) :
      State.OnlyAud k s' (u.settleHeader k 0 tagReset) ∧ (u.settleHeader k 0 tagReset).aud k
        = { u.aud k with
            seq := ((u.settleHeader k 0 tagReset).aud k).seq, unit := ((u.settleHeader k 0 tagReset).aud k).unit }
        ∧ ((u.settleHeader k 0 tagReset).aud k).unit.showState = (s'.aud k).unit.showState := by
    let u1 := u.modAud k fun a => { a with seq := { a.seq with listCount := 0 } }
    have hu1 : u1.aud k = { u.aud k with seq := { (u.aud k).seq with listCount := 0 } } := State.aud_modAud_same _ _ _
    have hunit : (u1.aud k).unit = (s'.aud k).unit := by rw [hu1, haud]
    obtain ⟨honly, _, more, hmore⟩ := State.decide_spec (s := u1) (k := k)
      (b := { b with outstanding := b.outstanding ++ [s.nextTag] }) (cTaken ||| tagResetBit tagReset)
      (bindReply (BitVec.ofNat 32 0) ((u.aud k).epochs.get .cues))
      ((State.binding_congr hu.bindings k .showRecord).trans hx') hl (by rw [hunit]; exact hb') (Nat.le_of_lt_succ hn)
    have hdecide : u.settleHeader k 0 tagReset = u1.decide k (cTaken ||| tagResetBit tagReset)
        (bindReply (BitVec.ofNat 32 0) ((u.aud k).epochs.get .cues)) := rfl
    rw [hdecide, hmore, hu1]
    refine ⟨(hu.trans (u.onlyAud_modAud k _)).trans honly, rfl, ?_⟩
    rw [haud]
  have hrest (t' : State) (ht : t = t') (seq : Sequencer) (unit : DirectiveUnit) (writer : Writer)
      (haud : t'.aud k = { s'.aud k with seq := seq, unit := unit, writer := writer })
      (hshow : unit.showState = (s'.aud k).unit.showState) (honly : State.OnlyAud k s' t') :
      State.OnlyAud k s' t ∧ (t.aud k).clock = (s.aud k).clock ∧ (t.aud k).link = (s.aud k).link
      ∧ (t.aud k).builder = (s.aud k).builder ∧ (t.aud k).unit.showState = (s.aud k).unit.showState
      ∧ (t.aud k).epochs = (s.aud k).epochs.raise .cues := by
    rw [hbound] at haud hshow
    rw [ht, haud]
    exact ⟨honly, rfl, rfl, rfl, hshow, rfl⟩
  obtain ⟨_, haccess⟩ | ⟨y, _, ⟨_, haccess⟩ | ⟨_, haccess⟩⟩ := s'.access_cases k .cues 0 4 [] .headerRead
  · obtain ⟨honly, haud, hshow⟩ := hsettles s' (.refl k s') rfl
    exact hrest _ (by
      rw [show t = s'.replyBind k .cues d.limit tagReset from rfl, State.replyBind, if_pos rfl, haccess]) _ _ _ haud
      hshow honly
  · let u := s'.report k (.regionFault .cues y.selector .limit 0)
    obtain ⟨honly, haud, hshow⟩ := hsettles u (s'.onlyAud_report k _) (s'.report_aud k _ k)
    refine hrest (u.settleHeader k 0 tagReset) (by
      rw [show t = s'.replyBind k .cues d.limit tagReset from rfl, State.replyBind, if_pos rfl, haccess])
      ((u.settleHeader k 0 tagReset).aud k).seq ((u.settleHeader k 0 tagReset).aud k).unit (u.aud k).writer ?_ hshow honly
    refine haud.trans ?_
    rw [show u.aud k = _ from s'.report_aud k _ k]
  · have honly := s'.onlyAud_access k .cues 0 4 [] .headerRead
    rw [haccess] at honly
    exact hrest _ (by
      rw [show t = s'.replyBind k .cues d.limit tagReset from rfl, State.replyBind, if_pos rfl, haccess]; rfl)
      (s'.aud k).seq { (s'.aud k).unit with batch := (s'.aud k).unit.batch.map fun b =>
        { b with phase := .counting s'.nextTag tagReset } } (s'.aud k).writer
      (State.aud_modAud_same _ _ _) rfl (honly.trans (State.onlyAud_modAud _ k _))

omit hx hl hn in
/-- A BIND of CUES reads the header of the cue list, for which the batch waits. -/
theorem State.binds_cues (hfree : s.binding k .cues = none) (hlimit : 31 ≤ d.limit.toNat) :
    let t := (s.bound k .cues selector d).replyBind k .cues d.limit tagReset
    t.aud k = { s.aud k with
        seq := (s.aud k).seq.newList, epochs := (s.aud k).epochs.raise .cues
        unit := { (s.aud k).unit with batch := some { b with
          phase := .counting (s.nextTag + 1) tagReset, outstanding := b.outstanding ++ [s.nextTag] } } }
      ∧ ∃ y ∈ t.inFlight, y.tag = s.nextTag + 1 ∧ y.aud = some k ∧ y.role = .cues ∧ y.selector = selector
          ∧ y.epoch = (s.aud k).epochs.cues + 1 ∧ y.address = d.base ∧ y.length = 4 ∧ y.data = []
          ∧ y.purpose = .headerRead := by
  intro t
  let s' := s.bound k .cues selector d
  obtain ⟨w, _, htag, _⟩ := s.bound_makes k .cues selector d
  have hnew : s'.binding k .cues = some (s.claimed k .cues selector d) := s.bound_binding_new k .cues selector d hfree
  have hin : 0 + 4 - 1 ≤ (s.claimed k .cues selector d).limit.toNat := by
    have : (s.claimed k .cues selector d).limit = d.limit := rfl
    rw [this]
    omega
  have ht : t = (s'.throughBinding (s.claimed k .cues selector d) 0 4 [] .headerRead).modAud k fun a => { a with
      unit := { a.unit with batch := a.unit.batch.map fun b => { b with phase := .counting s'.nextTag tagReset } } } := by
    rw [show t = s'.replyBind k .cues d.limit tagReset from rfl, State.replyBind, if_pos rfl, State.access_made hnew hin]
    rfl
  have hs' : (s'.throughBinding (s.claimed k .cues selector d) 0 4 [] .headerRead).aud k = { s.aud k with
        seq := (s.aud k).seq.newList, epochs := (s.aud k).epochs.raise .cues
        unit := (s.aud k).unit.waitFor [s.nextTag] } := s.bound_aud k .cues selector d
  refine ⟨?_, ?_⟩
  · rw [ht, State.aud_modAud_same, hs', show s'.nextTag = s.nextTag + 1 from htag]
    simp only [DirectiveUnit.waitFor, hb, Option.map_some]
  · rw [ht]
    refine ⟨_, List.mem_append_right _ (List.mem_singleton.mpr rfl), htag, rfl, rfl, rfl, rfl, ?_, rfl, rfl, rfl⟩
    exact BitVec.add_zero _

end Binds

/-- R75, R137, R187: what a binding of `role` holds, in the unit of its reply. -/
def Role.capacity (role : Role) (limit : Word) : Nat :=
  match role with
  | .payload => limit.toNat
  | .reports => (limit.toNat + 1) / 32
  | _ => min ((limit.toNat + 1) / 512) 65535

theorem replyCapacity_eq {role : Role} (hcues : role ≠ .cues) (hshow : role ≠ .showRecord) (limit : Word) :
    replyCapacity role limit = BitVec.ofNat 32 (role.capacity limit) := by
  cases role with
  | cues => exact absurd rfl hcues
  | showRecord => exact absurd rfl hshow
  | payload => simp [replyCapacity, Role.capacity]
  | narrationA => rfl
  | narrationB => rfl
  | bed => rfl
  | reports => rfl

/-- Settles O31. -/
theorem claimIsSettledInThreeSteps : Obligations.ClaimIsSettledInThreeSteps := by
  unfold Obligations.ClaimIsSettledInThreeSteps
  refine ⟨?_, ?_⟩
  · intro k tag a bytes b x role selector held allowed tagReset s hrunning h haud hp hb hphase hn hx hl hshow d minimum
      kind fit reset capacity bound cause faulted
    have hminimum : minimum = role.minLimit := by cases role <;> rfl
    have hkind : kind = role.kind := by cases role <;> rfl
    have hfit : fit ↔ d.Fits role := by
      unfold Descriptor.Fits
      rw [← hminimum, ← hkind]
    have hcause : cause = d.cause role := by
      unfold Descriptor.cause
      rw [← hminimum, ← hkind]
    have hcapacity : capacity = role.capacity d.limit := by cases role <;> rfl
    have hexec := h.claimRead_ok hrunning haud hp bytes
    by_cases hpasses : fit
    · rw [State.claimRead_fits (s := s.dropAccess tag) hb hphase (hfit.mp hpasses)] at hexec
      by_cases htaken : ∃ y ∈ s.bindings, y.selector = selector
      · rw [State.mapStep_busy (s := s.dropAccess tag) htaken] at hexec
        obtain ⟨hgoes, hissued, hbindings, hothers, hall, hprefix⟩ := State.refuses (s := s.dropAccess tag) hx hl hb hn
          [] (0x21#8 ||| reset)
        refine ⟨((s.dropAccess tag).reportAll k []).decide k (0x21#8 ||| reset) zeroReply, hexec, hothers, by rw [hall]; rfl, by rw [hall]; rfl, by rw [hall]; rfl, by rw [hall]; rfl,
          fun _ => hgoes, fun g => absurd hpasses g, fun _ _ => ⟨hbindings, by rw [hall]; rfl, hissued⟩,
          fun _ g => absurd htaken fun ⟨y, hy, he⟩ => g y hy he,
          fun _ g => absurd htaken fun ⟨y, hy, he⟩ => g y hy he⟩
      have hfree : ∀ y ∈ s.bindings, y.selector ≠ selector := fun y hy he => htaken ⟨y, hy, he⟩
      by_cases hbarred : held = true ∨ allowed = false
      · rw [State.mapStep_illegal (s := s.dropAccess tag) hfree hbarred] at hexec
        obtain ⟨hgoes, hissued, hbindings, hothers, hall, hprefix⟩ := State.refuses (s := s.dropAccess tag) hx hl hb hn
          [] (0x03#8 ||| reset)
        refine ⟨((s.dropAccess tag).reportAll k []).decide k (0x03#8 ||| reset) zeroReply, hexec, hothers, by rw [hall]; rfl, by rw [hall]; rfl, by rw [hall]; rfl, by rw [hall]; rfl,
          fun _ => hgoes, fun g => absurd hpasses g, fun _ g => absurd g htaken,
          fun _ _ _ => ⟨hbindings, by rw [hall]; rfl, hissued⟩,
          fun _ _ g1 g2 => by rw [g1, g2] at hbarred; exact absurd hbarred (by decide)⟩
      · have hheld : held = false := by simpa using fun g => hbarred (.inl g)
        have hallowed : allowed = true := by simpa using fun g => hbarred (.inr g)
        rw [State.mapStep_bound (s := s.dropAccess tag) hfree hheld hallowed] at hexec
        let s' := (s.dropAccess tag).bound k role selector d
        have hbound : s'.aud k = _ := State.bound_aud (s.dropAccess tag) k role selector d
        have hto (j : Aud) (hj : j ≠ k) : s'.aud j = s.aud j := State.bound_aud_ne (s.dropAccess tag) k role selector d hj
        have hbindings : s'.bindings = s.bindings ++ [s.claimed k role selector d] :=
          State.bound_bindings (s.dropAccess tag) k role selector d
        obtain ⟨w, hflight, _, _, _, _, htable⟩ := (s.dropAccess tag).bound_makes k role selector d
        have hfresh (P : Prop) (g : ∃ y ∈ s.bindings, y.selector = selector) : P := absurd g htaken
        have hopen (P : Prop) (g : held = true ∨ allowed = false) : P := absurd g hbarred
        by_cases hcues : role = .cues
        · obtain ⟨honly, hclock, hlink, hbuilder, hstate, hepochs⟩ := State.binds_cues_rest (s := s.dropAccess tag) (d := d)
            hx hl hb hn selector tagReset
          subst hcues
          have hnot (P : Prop) (g : Role.cues ≠ .cues) : P := absurd rfl g
          refine ⟨_, hexec, fun j hj => (honly.others j hj).trans (hto j hj), hclock, hlink, hbuilder, hstate,
            fun g => absurd ⟨rfl, hpasses, hfree, hheld, hallowed⟩ g, fun g => absurd hpasses g, fun _ => hfresh _,
            fun _ _ => hopen _, fun _ _ _ _ => ⟨?_, honly.bindings.trans hbindings, ?_, hnot _,
            (fun name hname => by cases name <;> exact (nomatch hname)), (fun g => nomatch g), fun _ hnone => ?_⟩⟩
          · rw [hepochs, Epochs.get_raise]; rfl
          · obtain ⟨added, hadded⟩ := honly.inFlight
            exact htable _ (by rw [hadded, hflight]; simp)
          · obtain ⟨hall, hread⟩ := State.binds_cues (s := s.dropAccess tag) (d := d) hb selector tagReset hnone
              (hfit.mp hpasses).2.2.1
            rw [hall]
            exact ⟨rfl, rfl, rfl, rfl, noActive_channel, rfl, hread⟩
        · obtain ⟨hgoes, hissued, honly, hall, hprefix⟩ := State.binds (s := s.dropAccess tag) (d := d) hx hl hb hn selector
            tagReset hcues
          rw [replyCapacity_eq hcues hshow, ← hcapacity] at hissued
          refine ⟨_, hexec, fun j hj => (honly.others j hj).trans (hto j hj), ?_, ?_, ?_, ?_, fun _ => hgoes,
            fun g => absurd hpasses g, fun _ => hfresh _, fun _ _ => hopen _, fun _ _ _ _ => ⟨?_,
            honly.bindings.trans hbindings, htable _ (hprefix.subset (by rw [hflight]; simp)),
            fun _ => ⟨hissued, ?_⟩, fun name hname => ?_, fun hreports => ?_, fun g => absurd g hcues⟩⟩
          · rw [hall, hbound, Auditorium.prepared_clock]; rfl
          · rw [hall, hbound, Auditorium.prepared_link]; rfl
          · rw [hall, hbound, Auditorium.prepared_builder]; rfl
          · rw [hall, hbound, Auditorium.prepared_unit]; rfl
          · rw [hall, hbound, Auditorium.prepared_epochs, Epochs.get_raise]; rfl
          · rw [hall, hbound]; exact Auditorium.prepared_seq _ _ _ hcues
          · rw [hall, hbound]
            refine (Auditorium.prepared_ring _ _ _ hname).trans ?_
            rw [hcapacity]
            subst hname
            cases name <;> rfl
          · rw [hall, hbound, hcapacity]
            subst hreports
            rfl
    · rw [State.claimRead_unfit (s := s.dropAccess tag) hb hphase (mt hfit.mpr hpasses)] at hexec
      obtain ⟨hgoes, hissued, hbindings, hothers, hall, hprefix⟩ := State.refuses (s := s.dropAccess tag) hx hl hb hn
        [.regionFault role selector (d.cause role) (16 * selector.toNat)] (0x11#8 ||| reset)
      rw [← hcause] at hexec hgoes hissued hbindings hothers hall hprefix
      refine ⟨_, hexec, hothers, by rw [hall]; rfl, by rw [hall]; rfl, by rw [hall]; rfl, by rw [hall]; rfl,
        fun _ => hgoes, fun _ => ⟨hbindings, by rw [hall]; rfl, by rw [hall], hprefix, hissued⟩, fun g => absurd g hpasses,
        fun g => absurd g hpasses, fun g => absurd g hpasses⟩
  · intro k tag a c b x role selector held allowed tagReset s hrunning h haud hp hrole hselector hoffset hends hb hphase hn
      hx hl faulted
    have hexec := h.claimRead_fails hrunning haud hp hends
    have hfb : (faulted.aud k).unit.batch = some b := by
      rw [show faulted = (s.dropAccess tag).reportAll k _ from rfl, State.reportAll_unit]
      exact hb
    rw [hrole, hselector, hoffset, State.claimFailed_awaited hfb hphase] at hexec
    obtain ⟨hgoes, hissued, hbindings, hothers, hall, hprefix⟩ := State.refuses (s := s.dropAccess tag) hx hl hb hn
      [.regionFault role selector .memory (16 * selector.toNat)] (0x11#8 ||| if tagReset then 0x40#8 else 0#8)
    exact ⟨_, hexec, hothers, hbindings, hall, hprefix, hgoes, hissued⟩

end Sys2Proof.Machine
end

section
/-! SUPPORT. The start-up scan and the DARK check (R142, R145 to R147, R182, R183). -/

namespace Sys2Proof.Machine

/-! ## How an access of the scan ends -/

section ScanEnds
variable {s : State} {tag : Nat} {a : Access} (hscanning : s.partState = .scanning) (h : s.InFlightAs tag a)
  (haud : a.aud = none)
include hscanning h haud

theorem State.InFlightAs.scanDescriptor_ok (hp : a.purpose = .startScanRead) (bytes : List Byte) :
    exec (.descriptorReadComplete tag (.ok bytes)) s = .next
      ((s.dropAccess tag).scanDescriptor a.selector (parseDescriptor (a.received bytes))).settleScan := by
  refine congrArg Host.Outcome.next ((h.endRead_ok (by rw [hp]; rfl) bytes).trans ?_)
  rw [State.endAccess_scanning (s := s.dropAccess tag) hscanning]
  unfold State.readDone
  rw [haud]

theorem State.InFlightAs.scanWrite_ok (hp : a.purpose = .startScanWrite)
    (hturn : ∀ y ∈ s.inFlight, y.tag < a.tag → ¬y.CommonByte a) (hanswer : a.answer ≠ some false) :
    exec (.writeComplete tag true) s = .next (s.dropAccess tag).settleScan := by
  have hok : a.answer.getD true = true := by
    cases hans : a.answer with
    | none => rfl
    | some ok =>
      cases ok with
      | true => rfl
      | false => exact absurd hans hanswer
  refine congrArg Host.Outcome.next ((h.endWrite_inTurn (by rw [hp]; rfl) true hturn).trans ?_)
  rw [hok, State.writeEnded, if_pos rfl, h.tagged, State.endAccess_scanning (s := s.dropAccess tag) hscanning]
  unfold State.writeDone
  rw [haud]

theorem State.InFlightAs.scanFails {c : Instr} (hc : s.Ends a c true) :
    ∃ r, State.Veiled tag (s.dropAccess tag) r ∧ exec c s = .next r.scanFailed := by
  obtain ⟨t, hexec, hends⟩ := h.ends hc
  have hfailed (r : State) (hr : State.Veiled tag (s.dropAccess tag) r)
      (ht : t = r.endAccess fun s => s.accessFailed a) :
      ∃ r, State.Veiled tag (s.dropAccess tag) r ∧ exec c s = .next r.scanFailed := by
    refine ⟨r, hr, hexec.trans (congrArg Host.Outcome.next (ht.trans ?_))⟩
    rw [State.endAccess_scanning (by rw [hr.rest]; exact hscanning)]
    unfold State.accessFailed
    rw [haud]
  cases hends with
  | readFails => exact hfailed _ (.refl _ _) (by rw [h.tagged])
  | writeFails => exact hfailed _ (State.veiled_withdraw tag _) (by rw [h.tagged])

end ScanEnds

/-! ## The end of the scan (R182, R183) -/

theorem State.settleScan_of_busy {s : State} (h : s.inFlight ≠ []) : s.settleScan = s := if_neg fun g => h g.2

/-- R182: the scan's last access makes the part RUNNING, the bound auditoriums HALTED. -/
theorem State.settleScan_done {s : State} (hscanning : s.partState = .scanning) (hflight : s.inFlight = [])
    (hdark : ∀ k, (s.aud k).unit.showState = .dark) :
    s.settleScan.partState = .running ∧ s.settleScan.inFlight = [] ∧ s.settleScan.bindings = s.bindings
      ∧ ∀ k, (s.settleScan.aud k).unit.showState
        = if (s.binding k .showRecord).isSome then .halted else .dark := by
  have haud := s.aud_mapAuds fun k a => if s.holdsRole k .showRecord then a.becomeHalted k else a
  have hbindings := s.mapAuds_bindings fun k a => if s.holdsRole k .showRecord then a.becomeHalted k else a
  have hnone := (s.mapAuds_inFlight fun k a => if s.holdsRole k .showRecord then a.becomeHalted k else a).trans hflight
  have hdone : s.settleScan = { s.mapAuds (fun k a => if s.holdsRole k .showRecord then a.becomeHalted k else a) with
      partState := .running } := if_pos ⟨hscanning, hflight⟩
  rw [hdone]
  generalize s.mapAuds (fun k a => if s.holdsRole k .showRecord then a.becomeHalted k else a) = t
    at haud hbindings hnone
  refine ⟨rfl, hnone, hbindings, fun k => (congrArg (fun a : Auditorium => a.unit.showState) (haud k)).trans ?_⟩
  unfold State.holdsRole
  split
  · rfl
  · exact hdark k

theorem State.settleScan_latches (s : State) :
    s.settleScan.notice = s.notice ∧ s.settleScan.houseFault = s.houseFault := by
  have hnotice := s.mapAuds_notice fun k a => if s.holdsRole k .showRecord then a.becomeHalted k else a
  have hfault := s.mapAuds_houseFault fun k a => if s.holdsRole k .showRecord then a.becomeHalted k else a
  unfold State.settleScan
  generalize s.mapAuds (fun k a => if s.holdsRole k .showRecord then a.becomeHalted k else a) = t at hnotice hfault ⊢
  split
  · exact ⟨hnotice, hfault⟩
  · exact ⟨rfl, rfl⟩

/-- R183: a scan that fails. -/
theorem State.scanFailed_eq (s : State) : s.scanFailed = { s with
    bindings := [], houseFault := true, notice := true
    messages := s.messages + (if s.notice = false ∧ s.noticeEn = true then 1 else 0)
    partState := if s.inFlight = [] ∧ ∀ k, (s.aud k).link.state = .idle then .stopped else .stopping } := by
  unfold State.scanFailed State.endScan
  rw [State.setHouseFault_eq, State.settleStop_stopping rfl Iff.rfl]
  rfl

/-! ## A descriptor of the scan (R145) -/

theorem showOwner_of_owned {selector : Byte} {k : Aud} (h : selector.toNat = k.val + 1) :
    showOwner selector = some k := by
  unfold showOwner
  rw [if_pos (by omega)]
  refine congrArg some (Fin.ext ?_)
  simp only [Fin.ofNat, h]
  omega

theorem showOwner_of_not_owned {selector : Byte} (h : ¬(1 ≤ selector.toNat ∧ selector.toNat ≤ 24)) :
    showOwner selector = none := if_neg h

theorem State.scanDescriptor_absent (s : State) (selector : Byte) {d : Descriptor} (h : d.present = false) :
    s.scanDescriptor selector d = s := by
  have hunfit : d.unfit .showRecord ≠ none := by
    rw [Descriptor.unfit_of_not_fits fun g => Bool.noConfusion (h.symm.trans g.1)]
    exact fun g => nomatch g
  unfold State.scanDescriptor
  rw [h]
  simp only [Bool.false_eq_true, if_false, hunfit]
  cases showOwner selector <;> rfl

/-- A descriptor that binds no show gets its binding bytes cleared. -/
theorem State.scanDescriptor_cleared (s : State) {selector : Byte} {d : Descriptor} (h : d.present = true)
    (hnot : ¬(d.Fits .showRecord ∧ 1 ≤ selector.toNat ∧ selector.toNat ≤ 24)) :
    s.scanDescriptor selector d = s.writeBindingBytes none .showRecord selector clearedBytes .startScanWrite := by
  unfold State.scanDescriptor
  rw [h]
  simp only [if_true]
  by_cases howned : 1 ≤ selector.toNat ∧ selector.toNat ≤ 24
  · have hunfit : d.unfit .showRecord ≠ none := by
      rw [Descriptor.unfit_of_not_fits fun g => hnot ⟨g, howned⟩]
      exact fun g => nomatch g
    cases showOwner selector with
    | none => rfl
    | some k => exact if_neg hunfit
  · rw [showOwner_of_not_owned howned]

/-- A fit descriptor of a show is bound after its binding bytes are cleared. -/
theorem State.scanDescriptor_bound (s : State) {selector : Byte} {d : Descriptor} {k : Aud}
    (hfits : d.Fits .showRecord) (hk : selector.toNat = k.val + 1) : s.scanDescriptor selector d
      = (s.writeBindingBytes none .showRecord selector clearedBytes .startScanWrite).bindShow k selector d none
          .startScanWrite := by
  unfold State.scanDescriptor
  rw [hfits.1, showOwner_of_owned hk]
  exact if_pos (Descriptor.unfit_of_fits hfits)

/-- `y` writes the two binding bytes of a descriptor, at the house time of `s` (R140). -/
def State.BindingBytes (s : State) (owner : Option Aud) (selector : Byte) (bytes : List Byte) (purpose : Purpose)
    (y : Access) : Prop :=
  y.aud = owner ∧ y.role = .showRecord ∧ y.selector = selector
    ∧ y.address = s.latchedBase + BitVec.ofNat 64 (16 * selector.toNat + 14) ∧ y.length = 2 ∧ y.data = bytes
    ∧ y.issued = s.houseTime ∧ y.purpose = purpose

theorem State.writeBindingBytes_inFlight (s : State) (owner : Option Aud) (selector : Byte) (bytes : List Byte)
    (purpose : Purpose) :
    ∃ y, (s.writeBindingBytes owner .showRecord selector bytes purpose).inFlight = s.inFlight ++ [y]
      ∧ y.tag = s.nextTag ∧ s.BindingBytes owner selector bytes purpose y :=
  ⟨_, rfl, rfl, rfl, rfl, rfl, rfl, rfl, rfl, rfl, rfl⟩

/-! ## The binding of a show (R145, R146) -/

section BindShow
variable (s : State) (k : Aud) (selector : Byte) (d : Descriptor) (owner : Option Aud) (purpose : Purpose)

theorem State.bindShow_bindings : (s.bindShow k selector d owner purpose).bindings
    = s.bindings ++ [s.claimed k .showRecord selector d] := by
  have hentry : (s.addBinding k .showRecord selector d).bindings
      = s.bindings ++ [s.claimed k .showRecord selector d] := by
    simp only [State.addBinding, Epochs.get_raise, State.claimed]
  exact hentry

theorem State.bindShow_aud : (s.bindShow k selector d owner purpose).aud k
    = { s.aud k with epochs := (s.aud k).epochs.raise .showRecord } :=
  State.aud_modAud_same s k fun a => { a with epochs := (s.aud k).epochs.raise .showRecord }

theorem State.bindShow_aud_ne {j : Aud} (hj : j ≠ k) : (s.bindShow k selector d owner purpose).aud j = s.aud j :=
  State.aud_modAud_ne s (fun a => { a with epochs := (s.aud k).epochs.raise .showRecord }) hj

theorem State.bindShow_inFlight : ∃ y, (s.bindShow k selector d owner purpose).inFlight = s.inFlight ++ [y]
    ∧ y.tag = s.nextTag ∧ s.BindingBytes owner selector (boundBytes .showRecord k) purpose y :=
  (s.addBinding k .showRecord selector d).writeBindingBytes_inFlight owner selector (boundBytes .showRecord k) purpose

end BindShow

/-- What a descriptor of the scan leaves of the part. -/
structure State.KeepsLatches (s t : State) : Prop where
  notice : t.notice = s.notice
  houseFault : t.houseFault = s.houseFault
  partState : t.partState = s.partState

/-- R145: a fit descriptor of a show is bound, and the write of its bound bytes awaits the clearing one. -/
theorem State.scanDescriptor_binds (s : State) {selector : Byte} {d : Descriptor} {k : Aud}
    (hfits : d.Fits .showRecord) (hk : selector.toNat = k.val + 1) :
    s.KeepsLatches (s.scanDescriptor selector d)
      ∧ (s.scanDescriptor selector d).bindings = s.bindings ++ [s.claimed k .showRecord selector d]
      ∧ (s.scanDescriptor selector d).aud k = { s.aud k with epochs := (s.aud k).epochs.raise .showRecord }
      ∧ (∀ j, j ≠ k → (s.scanDescriptor selector d).aud j = s.aud j)
      ∧ ∃ x y, (s.scanDescriptor selector d).inFlight = s.inFlight ++ [x, y] ∧ x.tag = s.nextTag
        ∧ s.BindingBytes none selector clearedBytes .startScanWrite x ∧ y.tag = s.nextTag + 1
        ∧ s.BindingBytes none selector (boundBytes .showRecord k) .startScanWrite y
        ∧ (s.scanDescriptor selector d).mustWait y = true := by
  rw [s.scanDescriptor_bound hfits hk]
  obtain ⟨x, hx, hxtag, hxwritten⟩ := s.writeBindingBytes_inFlight none selector clearedBytes .startScanWrite
  have haud (j : Aud) :
      (s.writeBindingBytes none .showRecord selector clearedBytes .startScanWrite).aud j = s.aud j := rfl
  have htag :
      (s.writeBindingBytes none .showRecord selector clearedBytes .startScanWrite).nextTag = s.nextTag + 1 := rfl
  have hkept : s.KeepsLatches (s.writeBindingBytes none .showRecord selector clearedBytes .startScanWrite) :=
    ⟨rfl, rfl, rfl⟩
  have hbytes (y : Access) : (s.writeBindingBytes none .showRecord selector clearedBytes .startScanWrite).BindingBytes
      none selector (boundBytes .showRecord k) .startScanWrite y
      → s.BindingBytes none selector (boundBytes .showRecord k) .startScanWrite y := id
  have hbinding : (s.writeBindingBytes none .showRecord selector clearedBytes .startScanWrite).bindings
      ++ [(s.writeBindingBytes none .showRecord selector clearedBytes .startScanWrite).claimed k .showRecord selector d]
      = s.bindings ++ [s.claimed k .showRecord selector d] := rfl
  generalize s.writeBindingBytes none .showRecord selector clearedBytes .startScanWrite = u
    at hx haud htag hkept hbytes hbinding
  obtain ⟨y, hy, hytag, hywritten⟩ := u.bindShow_inFlight k selector d none .startScanWrite
  have ⟨_, _, _, hxa, hxl, _⟩ := hxwritten
  have ⟨_, _, _, hya, hyl, _⟩ := hbytes y hywritten
  refine ⟨⟨hkept.notice, hkept.houseFault, hkept.partState⟩, (u.bindShow_bindings ..).trans hbinding,
    by rw [State.bindShow_aud, haud], fun j hj => (u.bindShow_aud_ne _ _ _ _ _ hj).trans (haud j), x, y,
    by rw [hy, hx, List.append_assoc]; rfl, hxtag, hxwritten, hytag.trans htag, hbytes y hywritten, ?_⟩
  rw [State.mustWait_iff]
  exact ⟨x, by rw [hy, hx]; simp, by rw [hxtag, hytag, htag]; exact Nat.lt_succ_self _, 0, 0, by rw [hxl]; decide,
    by rw [hyl]; decide, by rw [hya, hxa]⟩

/-- R146: a fit descriptor of a DARK auditorium brings its show up. -/
theorem State.darkCheckRead_fits (s : State) {k : Aud} (selector : Byte) {d : Descriptor}
    (hdark : (s.aud k).unit.showState = .dark) (h : d.Fits .showRecord) : s.darkCheckRead k selector d
      = (s.bindShow k selector d (some k) .bindingWrite).becomeHalted k :=
  if_pos ⟨hdark, Descriptor.unfit_of_fits h⟩

theorem State.darkCheckRead_unfit (s : State) (k : Aud) (selector : Byte) {d : Descriptor} (h : ¬d.Fits .showRecord) :
    s.darkCheckRead k selector d = s :=
  if_neg fun ⟨_, hunfit⟩ => Option.some_ne_none _ ((Descriptor.unfit_of_not_fits h).symm.trans hunfit)

/-- The completion of a DARK check's read. -/
theorem State.InFlightAs.darkCheck_ok {s : State} {k : Aud} {tag : Nat} {a : Access} (hrunning : s.partState = .running)
    (h : s.InFlightAs tag a) (haud : a.aud = some k) (hp : a.purpose = .darkCheckRead) (bytes : List Byte) :
    exec (.descriptorReadComplete tag (.ok bytes)) s
      = .next ((s.dropAccess tag).darkCheckRead k a.selector (parseDescriptor (a.received bytes))) := by
  refine congrArg Host.Outcome.next ((h.endRead_ok (by rw [hp]; rfl) bytes).trans ?_)
  rw [State.endAccess_running (s := s.dropAccess tag) hrunning]
  unfold State.readDone
  rw [haud]
  simp only [hp]

/-- Settles O32: a completed scan or DARK read is taken apart by its descriptor, absent, cleared, bound or unfit, and
an access of the scan that fails ends it. -/
theorem descriptorsBringShowsUp : Obligations.DescriptorsBringShowsUp := by
  unfold Obligations.DescriptorsBringShowsUp
  refine ⟨?_, ?_, ?_, ?_, ?_⟩
  · intro tag a bytes s hscanning hflight htag haud hdark running
    have h : s.InFlightAs tag a :=
      ⟨by rw [hflight]; exact List.mem_singleton.mpr rfl, htag, fun x hx _ => by
        rw [hflight] at hx; exact List.mem_singleton.mp hx⟩
    have hnone : (s.dropAccess tag).inFlight = [] := by
      simp [State.dropAccess, hflight, htag]
    have hdone : running (s.dropAccess tag).settleScan :=
      State.settleScan_done (s := s.dropAccess tag) hscanning hnone hdark
    refine ⟨fun hp habsent => ⟨_, h.scanDescriptor_ok hscanning haud hp bytes, ?_⟩, fun hp hanswer =>
      ⟨_, h.scanWrite_ok hscanning haud hp (fun y hy hlt => ?_) hanswer, hdone⟩⟩
    · rw [State.scanDescriptor_absent _ _ habsent]
      exact hdone
    · rw [hflight] at hy
      rw [List.mem_singleton.mp hy] at hlt
      exact absurd hlt (Nat.lt_irrefl _)
  · intro tag a bytes s hscanning h haud hp d owned fit rest written
    have hfit : fit ↔ d.Fits .showRecord := Iff.rfl
    have hexec : exec (.descriptorReadComplete tag (.ok bytes)) s
        = .next ((s.dropAccess tag).scanDescriptor a.selector d).settleScan :=
      h.scanDescriptor_ok hscanning haud hp bytes
    by_cases hpresent : d.present = true
    · obtain ⟨x, hx, hxtag, hxwritten⟩ :=
        (s.dropAccess tag).writeBindingBytes_inFlight none a.selector clearedBytes .startScanWrite
      by_cases hbound : fit ∧ owned
      · obtain ⟨k, hk⟩ : ∃ k : Aud, a.selector.toNat = k.val + 1 :=
          ⟨⟨a.selector.toNat - 1, by have := hbound.2.2; omega⟩, (Nat.sub_add_cancel hbound.2.1).symm⟩
        obtain ⟨hrest, hbindings, haudk, haudj, x, y, hflight, hxtag, hxwritten, hytag, hywritten, hwait⟩ :=
          (s.dropAccess tag).scanDescriptor_binds (hfit.mp hbound.1) hk
        have hbusy : ((s.dropAccess tag).scanDescriptor a.selector d).inFlight ≠ [] := by
          rw [hflight]
          exact List.append_ne_nil_of_right_ne_nil _ (List.cons_ne_nil _ _)
        rw [State.settleScan_of_busy hbusy] at hexec
        refine ⟨_, hexec, hrest.notice, hrest.houseFault, fun g => Bool.noConfusion (hpresent.symm.trans g),
          fun _ g => absurd hbound g, fun j _ hj => ?_⟩
        obtain rfl : j = k := Fin.ext (Nat.succ.inj (hj.symm.trans hk))
        exact ⟨hrest.partState.trans hscanning, hbindings, haudk, haudj, x, y, hflight, hxtag, hxwritten, hytag,
          hywritten, hwait⟩
      · rw [State.scanDescriptor_cleared _ hpresent fun g => hbound ⟨hfit.mpr g.1, g.2⟩,
          State.settleScan_of_busy (by rw [hx]; exact List.append_ne_nil_of_right_ne_nil _ (List.cons_ne_nil _ _))]
          at hexec
        refine ⟨_, hexec, rfl, rfl, fun g => ?_, fun _ _ => ⟨hscanning, rfl, fun _ => rfl, x, hx, hxtag, hxwritten⟩,
          fun k hf hk => ?_⟩
        · exact Bool.noConfusion (hpresent.symm.trans g)
        · exact absurd ⟨hf, by omega, by omega⟩ hbound
    · rw [State.scanDescriptor_absent _ _ (Bool.eq_false_iff.mpr hpresent)] at hexec
      obtain ⟨hnotice, hfault⟩ := (s.dropAccess tag).settleScan_latches
      refine ⟨_, hexec, hnotice, hfault, fun _ hrest => ?_, fun g => absurd g hpresent,
        fun k hf => absurd hf.1 hpresent⟩
      rw [State.settleScan_of_busy (s := s.dropAccess tag) hrest]
      exact ⟨hscanning, rfl, rfl, fun _ => rfl⟩
  · intro k tag a bytes s hrunning h haud hp hselector hdark d fit
    have hfit : fit ↔ d.Fits .showRecord := Iff.rfl
    have hexec : exec (.descriptorReadComplete tag (.ok bytes)) s
        = .next ((s.dropAccess tag).darkCheckRead k a.selector d) := h.darkCheck_ok hrunning haud hp bytes
    by_cases hd : fit
    · rw [State.darkCheckRead_fits (s.dropAccess tag) a.selector hdark (hfit.mp hd)] at hexec
      obtain ⟨y, hy, hytag, hyaud, hyrole, hyselector, hyaddress, hylength, hydata, hyissued, hypurpose⟩ :=
        (s.dropAccess tag).bindShow_inFlight k a.selector d (some k) .bindingWrite
      have haudk : (((s.dropAccess tag).bindShow k a.selector d (some k) .bindingWrite).becomeHalted k).aud k
          = Auditorium.becomeHalted { s.aud k with epochs := (s.aud k).epochs.raise .showRecord } k := by
        unfold State.becomeHalted
        rw [State.aud_modAud_same, State.bindShow_aud]
        rfl
      have hbindings : (((s.dropAccess tag).bindShow k a.selector d (some k) .bindingWrite).becomeHalted k).bindings
          = s.bindings ++ [s.claimed k .showRecord a.selector d] := by
        unfold State.becomeHalted
        rw [State.modAud_bindings, State.bindShow_bindings]
        rfl
      refine ⟨_, hexec, fun _ => ?_, fun g => absurd hd g⟩
      rw [haudk, hbindings]
      refine ⟨rfl, rfl, rfl, rfl, rfl, rfl, rfl, rfl, rfl, rfl, y, ?_, by rw [hytag]; exact Nat.le_refl _, hyissued,
        hyaud, hyrole, hyselector, hyaddress, hylength, hydata, hypurpose⟩
      unfold State.becomeHalted
      rw [State.modAud_inFlight, hy]
      exact List.mem_append_right _ (List.mem_singleton.mpr rfl)
    · rw [State.darkCheckRead_unfit (s.dropAccess tag) k a.selector fun g => hd (hfit.mpr g)] at hexec
      exact ⟨_, hexec, fun g => absurd g hd, fun _ => ⟨rfl, rfl, rfl⟩⟩
  · intro tag a c s hscanning h haud hends rest
    obtain ⟨r, hr, hexec⟩ := h.scanFails hscanning haud hends
    rw [State.scanFailed_eq] at hexec
    refine ⟨_, hexec, ?_, hr.flight⟩
    have hempty : r.inFlight = [] ↔ rest = [] := by
      rw [← List.length_eq_zero_iff, hr.length, List.length_eq_zero_iff]
      rfl
    rw [hr.rest]
    simp only [hempty]
    rfl
  · intro k tag a c s hrunning h haud hp hends
    rw [h.readFails (by rw [hp]; rfl) hends, State.endAccess_running (s := s.dropAccess tag) hrunning]
    unfold State.accessFailed State.memoryFault State.blockFailed
    rw [haud]
    simp only [hp]
    rw [State.setHouseFault_eq]
    rfl

end Sys2Proof.Machine
end

section
/-! SUPPORT. Unknown kinds, RUN and HALT (R155, R159, R160). -/

namespace Sys2Proof.Machine

/-! ## Commands on the blocks of one auditorium alone -/

/-- Only the blocks of auditorium `k` differ between `s` and `t`. -/
def State.BlocksOnly (k : Aud) (s t : State) : Prop := ∃ f, t = s.modAud k f

section BlocksOnly
variable {k : Aud} {s t u : State}

theorem State.BlocksOnly.refl (k : Aud) (s : State) : State.BlocksOnly k s s := ⟨fun a => a, (s.modAud_id k).symm⟩

theorem State.blocksOnly_modAud (k : Aud) (s : State) (f : Auditorium → Auditorium) :
    State.BlocksOnly k s (s.modAud k f) := ⟨f, rfl⟩

theorem State.BlocksOnly.trans (h : State.BlocksOnly k s t) (g : State.BlocksOnly k t u) : State.BlocksOnly k s u := by
  obtain ⟨f, rfl⟩ := h
  obtain ⟨f', rfl⟩ := g
  exact ⟨_, s.modAud_modAud k f f'⟩

theorem State.BlocksOnly.eq (h : State.BlocksOnly k s t) : t = s.modAud k fun _ => t.aud k := by
  obtain ⟨f, rfl⟩ := h
  rw [State.aud_modAud_same]
  rfl

theorem State.blocksOnly_askBuilder (k : Aud) (s : State) (f : Builder → Builder) :
    State.BlocksOnly k s (s.askBuilder k f) := by
  unfold State.askBuilder
  split
  · exact s.blocksOnly_modAud k _
  · exact .refl k s

theorem State.blocksOnly_signalBuilder (k : Aud) (s : State) : State.BlocksOnly k s (s.signalBuilder k) := by
  unfold State.signalBuilder
  split
  · exact s.blocksOnly_modAud k _
  · exact .refl k s

theorem State.blocksOnly_seqSend (k : Aud) (s : State) {o : SeqOut} (h : o.toBuilder = true) :
    State.BlocksOnly k s (s.seqSend k o) := by
  cases o with
  | start => exact s.blocksOnly_askBuilder k _
  | remove => exact s.blocksOnly_askBuilder k _
  | clear => exact s.blocksOnly_askBuilder k _
  | textReady => exact s.blocksOnly_askBuilder k _
  | report => exact nomatch h
  | readEntry => exact nomatch h
  | readScan => exact nomatch h
  | readLookback => exact nomatch h
  | readText => exact nomatch h

theorem State.blocksOnly_seqSendAll (k : Aud) (s : State) {l : List SeqOut} (h : ∀ o ∈ l, o.toBuilder = true) :
    State.BlocksOnly k s (s.seqSendAll k l) := by
  induction l generalizing s with
  | nil => exact .refl k s
  | cons o rest ih =>
    exact (s.blocksOnly_seqSend k (h o List.mem_cons_self)).trans
      (ih (s.seqSend k o) fun x hx => h x (List.mem_cons_of_mem _ hx))

theorem State.blocksOnly_seqStep (k : Aud) (s : State) {f : SeqEnv → Sequencer → Sequencer × List SeqOut}
    (h : ∀ o ∈ (f (s.seqEnv k) (s.aud k).seq).2, o.toBuilder = true) : State.BlocksOnly k s (s.seqStep k f) := by
  rw [State.seqStep_eq]
  exact (s.blocksOnly_seqSendAll k h).trans (State.blocksOnly_modAud k _ _)

end BlocksOnly

theorem Sequencer.halt_toBuilder (q : Sequencer) (env : SeqEnv) : ∀ o ∈ (q.halt env).2, o.toBuilder = true := by
  unfold Sequencer.halt
  split
  · exact screenRequests_toBuilder _ _
  · exact fun _ h => nomatch h

theorem State.blocksOnly_haltShow (k : Aud) (s : State) : State.BlocksOnly k s (s.haltShow k) := by
  have hclear (s : State) : State.BlocksOnly k s (s.deliver k .clear) := by
    rw [State.deliver_eq]
    exact ((s.blocksOnly_signalBuilder k).trans
      (State.blocksOnly_seqSendAll k _ (Sequencer.clearOrder_toBuilder _ _))).trans (State.blocksOnly_modAud k _ _)
  have hhalt (s : State) : State.BlocksOnly k s ((s.seqStep k fun env q => q.halt env).modMixer k Mixer.halt) :=
    (s.blocksOnly_seqStep k (Sequencer.halt_toBuilder _ _)).trans (State.blocksOnly_modAud k _ _)
  unfold State.haltShow
  simp only
  split
  · exact ((s.blocksOnly_modAud k _).trans (hclear _)).trans (hhalt _)
  · exact (s.blocksOnly_modAud k _).trans (hhalt _)

/-- Settles O53: the kind is refused, which leaves everything but the tag state. -/
theorem unknownKindIsIllegal : Obligations.UnknownKindIsIllegal := by
  unfold Obligations.UnknownKindIsIllegal
  intro k kind b s h
  have d := h.refused cIllegal
  refine ⟨_, congrArg Host.Outcome.next (h.takes _), d.only, ?_, d.goesOn, d.aud⟩
  have hissued := d.issued
  split at hissued <;> rename_i htag
  · rw [if_pos htag]; exact hissued
  · rw [if_neg htag]; exact hissued

/-! ## RUN (R159) -/

section Run
variable {s : State} {k : Aud}

theorem State.runRefusal_running (h : (s.aud k).unit.showState = .running) : s.runRefusal k = some cIllegal := by
  simp [State.runRefusal, State.show, h]

theorem State.runRefusal_closing (h : (s.aud k).unit.showState = .closing) : s.runRefusal k = some cBusy := by
  simp [State.runRefusal, State.show, h]

theorem State.runRefusal_halted (h : (s.aud k).unit.showState = .halted) : s.runRefusal k
    = if ¬(s.holdsRole k .cues = true ∨ s.holdsRole k .narrationA = true ∨ s.holdsRole k .narrationB = true) then
        some cIllegal
      else if s.holdsRole k .cues ≠ s.holdsRole k .payload then some cParameter else none := by
  simp [State.runRefusal, State.show, h, and_assoc]

theorem State.doRun_refused {condition : Byte} (h : s.runRefusal k = some condition) :
    s.doRun k = s.settle k condition := by
  unfold State.doRun
  rw [h]

theorem State.doRun_starts (h : s.runRefusal k = none) : s.doRun k = (s.modAud k Auditorium.run).settle k 0 := by
  unfold State.doRun
  rw [h]

end Run

/-- Settles O43: the checks of R159 in order, each refusal leaving the blocks, and a RUN that passes them. -/
theorem runStartsTheShowOrIsRefused : Obligations.RunStartsTheShowOrIsRefused := by
  unfold Obligations.RunStartsTheShowOrIsRefused
  intro k b s h reset shown content untouched
  refine ⟨s.doRun k, congrArg Host.Outcome.next (h.takes fun s => s.doRun k), ?_⟩
  have hrefused {condition : Byte} (g : s.runRefusal k = some condition) :
      State.Decided s (s.doRun k) k b (0x01#8 ||| condition ||| reset) (List.replicate 16 0)
        { s.aud k with unit := { (s.aud k).unit with tag := .empty } } := by
    rw [State.doRun_refused g]
    exact h.refused condition
  have hnot {x y : ShowState} {p : Prop} (hx : shown = x) (hne : x ≠ y) (hy : shown = y) : p :=
    absurd (hx.symm.trans hy) hne
  cases hshown : (s.aud k).unit.showState with
  | dark => exact absurd hshown h.lit
  | running =>
    have d := hrefused (State.runRefusal_running hshown)
    exact ⟨d.only, by rw [d.aud], d.goesOn, fun _ => ⟨d.aud, d.issued⟩, hnot hshown (by decide),
      hnot hshown (by decide), hnot hshown (by decide), hnot hshown (by decide)⟩
  | closing =>
    have d := hrefused (State.runRefusal_closing hshown)
    exact ⟨d.only, by rw [d.aud], d.goesOn, hnot hshown (by decide), fun _ => ⟨d.aud, d.issued⟩,
      hnot hshown (by decide), hnot hshown (by decide), hnot hshown (by decide)⟩
  | halted =>
    have hrefusal := State.runRefusal_halted hshown
    by_cases hcontent : content
    · rw [if_neg (not_not_intro hcontent)] at hrefusal
      by_cases hpair : s.holdsRole k .cues = s.holdsRole k .payload
      · rw [if_neg (not_not_intro hpair)] at hrefusal
        have d : State.Decided s (s.doRun k) k b (0x01#8 ||| reset) (List.replicate 16 0)
            { (s.aud k).run with unit := { (s.aud k).run.unit with tag := .empty } } := by
          rw [State.doRun_starts hrefusal]
          exact h.settled Auditorium.run rfl rfl 0
        refine ⟨d.only, by rw [d.aud], d.goesOn, hnot hshown (by decide),
          hnot hshown (by decide), fun _ g => absurd hcontent g, fun _ _ g => absurd hpair g,
          fun _ _ _ => ⟨d.issued, ?_⟩⟩
        rw [d.aud]
        exact ⟨rfl, rfl, rfl, rfl, rfl, rfl, rfl, rfl, rfl, rfl, rfl, rfl, rfl, rfl, rfl, rfl, rfl, rfl, rfl, rfl,
          rfl, rfl, rfl⟩
      · rw [if_pos hpair] at hrefusal
        have d := hrefused hrefusal
        exact ⟨d.only, by rw [d.aud], d.goesOn, hnot hshown (by decide),
          hnot hshown (by decide), fun _ g => absurd hcontent g, fun _ _ _ => ⟨d.aud, d.issued⟩,
          fun _ _ g => absurd g hpair⟩
    · rw [if_pos hcontent] at hrefusal
      have d := hrefused hrefusal
      exact ⟨d.only, by rw [d.aud], d.goesOn, hnot hshown (by decide),
        hnot hshown (by decide), fun _ _ => ⟨d.aud, d.issued⟩, fun _ g => absurd g hcontent,
        fun _ g => absurd g hcontent⟩

/-! ## HALT (R160) -/

/-- Settles O44: a HALT taken in RUNNING halts the blocks, any other only settles. -/
theorem haltClosesARunningShow : Obligations.HaltClosesARunningShow := by
  unfold Obligations.HaltClosesARunningShow
  intro k b s h reset
  refine ⟨s.doHalt k, congrArg Host.Outcome.next (h.takes fun s => s.doHalt k), ?_⟩
  by_cases hrunning : (s.aud k).unit.showState = .running
  · have hhalts := s.haltShow_halts k
    have d : State.Decided s (s.doHalt k) k b (0x01#8 ||| reset) (List.replicate 16 0)
        { (s.haltShow k).aud k with unit := { ((s.haltShow k).aud k).unit with tag := .empty } } := by
      have hdo : s.doHalt k = (s.modAud k fun _ => (s.haltShow k).aud k).settle k 0 := by
        unfold State.doHalt
        rw [if_pos (show s.show k = .running from hrunning), ← (s.blocksOnly_haltShow k).eq]
      rw [hdo]
      exact h.settled (fun _ => (s.haltShow k).aud k) (by rw [hhalts.unit]) (by rw [hhalts.unit]) 0
    obtain ⟨q, hseq, -⟩ := hhalts.seq
    have hclock : ((s.haltShow k).aud k).clock.seats = (s.aud k).clock.seats
        ∧ ((s.aud k).clock.state ≠ .idle →
          ((s.haltShow k).aud k).clock.showTime = 0 ∧ ((s.haltShow k).aud k).clock.eps = 0) := by
      obtain hcleared | hkept := hhalts.clock
      · rw [hcleared]
        exact ⟨rfl, fun _ => ⟨rfl, rfl⟩⟩
      · exact ⟨by rw [hkept], fun g => absurd ((congrArg Clock.state hkept).symm.trans hhalts.idle) g⟩
    have hmixer : (∀ r ∈ [RingName.a, .b, .bed], (((s.haltShow k).aud k).mixer.ring r).blocks = []
          ∧ (((s.haltShow k).aud k).mixer.ring r).resync = true
          ∧ (((s.haltShow k).aud k).mixer.ring r).take = ((s.aud k).mixer.ring r).take)
        ∧ ((s.haltShow k).aud k).mixer.gainA = (s.aud k).mixer.settings.gb.toNat
        ∧ ((s.haltShow k).aud k).mixer.gainB = (s.aud k).mixer.settings.gb.toNat := by
      obtain h | h := hhalts.mixer
      all_goals
        rw [h]
        exact ⟨fun r _ => by cases r <;> exact ⟨rfl, rfl, rfl⟩, rfl, rfl⟩
    refine ⟨d.only, by rw [d.aud], d.goesOn, d.issued, ?_⟩
    rw [d.aud]
    refine ⟨hhalts.link, hhalts.receiver, by rw [hhalts.unit], fun _ => ?_, fun g => absurd hrunning g⟩
    refine ⟨by rw [hhalts.unit], hhalts.idle, hclock.1, hclock.2, by rw [hseq]; rfl, by rw [hseq]; rfl,
      by rw [hseq]; rfl,
      fun c => ?_, by rw [hhalts.builder]; rfl, by rw [hhalts.builder]; rfl, by rw [hhalts.builder]; rfl, hmixer⟩
    rw [hseq]
    exact noActive_channel c
  · have d : State.Decided s (s.doHalt k) k b (0x01#8 ||| reset) (List.replicate 16 0)
        { s.aud k with unit := { (s.aud k).unit with tag := .empty } } := by
      unfold State.doHalt
      rw [if_neg (show ¬s.show k = .running from hrunning)]
      exact h.refused 0
    refine ⟨d.only, by rw [d.aud], d.goesOn, d.issued, ?_⟩
    rw [d.aud]
    exact ⟨rfl, rfl, rfl, fun g => absurd g hrunning, fun _ => ⟨rfl, rfl, rfl, rfl, rfl⟩⟩

end Sys2Proof.Machine
end

section
/-! SUPPORT. BIND and RELEASE (R136, R138, R157, R158). -/

namespace Sys2Proof.Machine

/-! ## The roles a directive may name (R136, R138, R192) -/

theorem roleOfCode_eq_some_iff {code : Byte} {r : Role} : roleOfCode code = some r ↔ r.code = code := by
  constructor
  · intro h
    unfold roleOfCode at h
    refine BitVec.eq_of_toNat_eq ?_
    split at h
    all_goals
      rename_i hcode
      cases h
    all_goals exact hcode.symm
  · rintro rfl
    cases r <;> rfl

theorem directiveRole_eq_some_iff {code : Byte} {r : Role} :
    directiveRole code = some r ↔ r.code = code ∧ r ≠ .showRecord := by
  simp [directiveRole, Option.filter_eq_some_iff, roleOfCode_eq_some_iff]

theorem directiveRole_eq_none_iff {code : Byte} :
    directiveRole code = none ↔ ¬(2 ≤ code.toNat ∧ code.toNat ≤ 7) := by
  constructor
  · rintro h ⟨hlow, hhigh⟩
    have hnamed : ∃ r : Role, r ≠ .showRecord ∧ r.code.toNat = code.toNat := by
      generalize code.toNat = n at hlow hhigh
      interval_cases n
      · exact ⟨.cues, by decide, rfl⟩
      · exact ⟨.payload, by decide, rfl⟩
      · exact ⟨.narrationA, by decide, rfl⟩
      · exact ⟨.narrationB, by decide, rfl⟩
      · exact ⟨.bed, by decide, rfl⟩
      · exact ⟨.reports, by decide, rfl⟩
    obtain ⟨r, hr, hcode⟩ := hnamed
    exact nomatch h.symm.trans (directiveRole_eq_some_iff.mpr ⟨BitVec.eq_of_toNat_eq hcode, hr⟩)
  · intro h
    refine Option.eq_none_iff_forall_ne_some.mpr fun r g => h ?_
    obtain ⟨rfl, hr⟩ := directiveRole_eq_some_iff.mp g
    cases r with
    | showRecord => exact absurd rfl hr
    | cues => decide
    | payload => decide
    | narrationA => decide
    | narrationB => decide
    | bed => decide
    | reports => decide

/-! ## BIND (R136, R157) -/

section Bind
variable {s : State} {k : Aud} {role selector : Byte} {r : Role}

theorem State.selectorServes_iff : s.selectorServes selector = true
    ↔ 24 < selector.toNat ∧ selector.toNat < s.latchedCount.toNat := by
  simp [State.selectorServes]

theorem State.doBind_claims (hr : directiveRole role = some r) (h : s.selectorServes selector = true) :
    s.doBind k role selector = s.claim k r selector := by
  unfold State.doBind
  rw [hr]
  exact if_pos h

theorem State.doBind_refused (h : ¬((∃ r, directiveRole role = some r) ∧ s.selectorServes selector = true)) :
    s.doBind k role selector = s.settle k cParameter := by
  unfold State.doBind
  cases hr : directiveRole role with
  | none => rfl
  | some r => exact if_neg fun g => h ⟨⟨r, hr⟩, g⟩

theorem bindAllowed_eq {code : Byte} {x : ShowState} (h : directiveRole code = some r) (hlit : x ≠ .dark) :
    bindAllowed r x = if code = 2#8 ∨ code = 3#8 then Decidable.decide (x = .halted) else true := by
  obtain ⟨rfl, hr⟩ := directiveRole_eq_some_iff.mp h
  cases r with
  | showRecord => exact absurd rfl hr
  | cues => rfl
  | payload => rfl
  | narrationA => cases x <;> simp_all [bindAllowed, Role.code]
  | narrationB => cases x <;> simp_all [bindAllowed, Role.code]
  | bed => cases x <;> simp_all [bindAllowed, Role.code]
  | reports => cases x <;> simp_all [bindAllowed, Role.code]

theorem State.tagHeld_eq (s : State) (k : Aud) : s.tagHeld k = Decidable.decide ((s.aud k).unit.tag ≠ .empty) := by
  by_cases h : (s.aud k).unit.tag = .empty <;> simp [State.tagHeld, h]

/-- R136, R168: the blocks of an auditorium whose batch waits for a claim's descriptor. -/
def Auditorium.claiming (a : Auditorium) (phase : BatchPhase) : Auditorium :=
  { a with unit := { a.unit with tag := .empty, batch := a.unit.batch.map fun b => { b with phase := phase } } }

/-- R136: the descriptor of a claim is read, and the batch waits for it. -/
theorem State.claim_eq (s : State) (k : Aud) (r : Role) (selector : Byte) :
    s.claim k r selector = (s.modAud k fun a => a.claiming
        (.claiming s.nextTag r selector (s.holdsRole k r) (bindAllowed r (s.aud k).unit.showState)
          (s.tagHeld k))).readDescriptor
      (some k) r selector .claimRead := by
  unfold State.claim State.emptyTag
  dsimp only
  rw [State.modUnit_def, State.modUnit_def, State.modAud_modAud]
  rfl

theorem State.tableIssued_readDescriptor (s : State) (owner : Option Aud) (r : Role) (selector : Byte) (p : Purpose) :
    s.TableIssued (s.readDescriptor owner r selector p) owner r selector 0 16 [] p :=
  ⟨_, List.mem_append_right _ (List.mem_singleton.mpr rfl), Nat.le_refl _, rfl, rfl, rfl, rfl, rfl, rfl, rfl, rfl⟩

end Bind

/-- Settles O41: a BIND whose role and selector pass reads the descriptor, any other is refused. -/
theorem bindReadsTheDescriptorOrIsRefused : Obligations.BindReadsTheDescriptorOrIsRefused := by
  unfold Obligations.BindReadsTheDescriptorOrIsRefused
  intro k role selector b s h reset good
  refine ⟨s.doBind k role selector, congrArg Host.Outcome.next (h.takes fun s => s.doBind k role selector), ?_⟩
  have hgood : good ↔ (∃ r, directiveRole role = some r) ∧ s.selectorServes selector = true := by
    rw [← Option.ne_none_iff_exists', ne_eq, directiveRole_eq_none_iff, not_not, State.selectorServes_iff, and_assoc]
  by_cases hg : good
  · obtain ⟨⟨r, hr⟩, hserves⟩ := hgood.mp hg
    obtain ⟨hcode, -⟩ := directiveRole_eq_some_iff.mp hr
    rw [State.doBind_claims hr hserves, State.claim_eq, bindAllowed_eq hr h.lit, State.tagHeld_eq]
    generalize hphase : BatchPhase.claiming s.nextTag r selector (s.holdsRole k r)
      (if role = 2#8 ∨ role = 3#8 then Decidable.decide ((s.aud k).unit.showState = .halted) else true)
      (Decidable.decide ((s.aud k).unit.tag ≠ .empty)) = phase
    have haud : ((s.modAud k fun a => a.claiming phase).readDescriptor (some k) r selector .claimRead).aud k
        = { s.aud k with unit := { (s.aud k).unit with tag := .empty, batch := some { b with phase := phase } } } := by
      refine (State.aud_modAud_same s k fun a => a.claiming phase).trans ?_
      unfold Auditorium.claiming
      rw [h.batch]
      rfl
    refine ⟨(s.onlyAud_modAud k _).trans (State.onlyAud_tableAccess _ k _ _ _ _ _ _ _), ?_, ?_, ?_,
      fun g => absurd hg g,
      fun _ => ⟨r, s.nextTag, hcode, ?_, State.tableIssued_readDescriptor _ _ _ _ _, ?_, rfl⟩⟩
    · rw [haud]
    · rw [haud]
    · rw [haud]
    · exact List.length_append.trans rfl
    · rw [haud, ← hphase]
  · rw [State.doBind_refused fun g => hg (hgood.mpr g)]
    have d := h.refused cParameter
    exact ⟨d.only, by rw [d.aud], by rw [d.aud], d.aud, fun _ => ⟨d.issued, d.goesOn⟩, fun g => absurd g hg⟩

/-! ## RELEASE (R138, R158) -/

/-- R138: the block that served a role after its release. -/
def Auditorium.retired (a : Auditorium) : Role → Auditorium
  | .showRecord => a
  | .cues => { a with seq := { a.seq with listCount := 0 } }
  | .payload => a
  | .narrationA => { a with mixer := a.mixer.modRing .a Ring.unbind }
  | .narrationB => { a with mixer := a.mixer.modRing .b Ring.unbind }
  | .bed => { a with mixer := a.mixer.modRing .bed Ring.unbind }
  | .reports => { a with writer := a.writer.unbind }

section Retired
variable (a : Auditorium) (r : Role)

theorem Auditorium.retired_epochs : (a.retired r).epochs = a.epochs := by cases r <;> rfl
theorem Auditorium.retired_clock : (a.retired r).clock = a.clock := by cases r <;> rfl
theorem Auditorium.retired_builder : (a.retired r).builder = a.builder := by cases r <;> rfl
theorem Auditorium.retired_link : (a.retired r).link = a.link := by cases r <;> rfl
theorem Auditorium.retired_receiver : (a.retired r).receiver = a.receiver := by cases r <;> rfl

theorem Auditorium.retired_withUnit (u : DirectiveUnit) :
    { a with unit := u }.retired r = { a.retired r with unit := u } := by cases r <;> rfl

end Retired

theorem State.retireRole_eq (s : State) (k : Aud) (r : Role) : s.retireRole k r = s.modAud k fun a => a.retired r := by
  cases r with
  | showRecord => exact (s.modAud_id k).symm
  | cues => rfl
  | payload => exact (s.modAud_id k).symm
  | narrationA => rfl
  | narrationB => rfl
  | bed => rfl
  | reports => rfl

section Release
variable {s : State} {k : Aud} {role : Byte} {r : Role}

theorem releaseAllowed_iff {x : ShowState} :
    releaseAllowed r x = true ↔ (r = .cues ∨ r = .payload → x = .halted) := by
  unfold releaseAllowed
  split
  · next h => simp [h]
  · next h => simp [h]

theorem State.doRelease_badRole (h : directiveRole role = none) : s.doRelease k role = s.settle k cParameter := by
  unfold State.doRelease
  rw [h]

theorem State.doRelease_unheld (hr : directiveRole role = some r) (h : s.binding k r = none) :
    s.doRelease k role = s.settle k cIllegal := by
  unfold State.doRelease
  simp only [hr, h]

theorem State.doRelease_notAllowed {x : Binding} (hr : directiveRole role = some r) (hx : s.binding k r = some x)
    (h : ¬releaseAllowed r (s.show k) = true) : s.doRelease k role = s.settle k cIllegal := by
  unfold State.doRelease
  simp only [hr, hx]
  exact if_neg h

theorem State.doRelease_allowed {x : Binding} (hr : directiveRole role = some r) (hx : s.binding k r = some x)
    (h : releaseAllowed r (s.show k) = true) : s.doRelease k role = s.releaseBinding k r x := by
  unfold State.doRelease
  simp only [hr, hx]
  exact if_pos h

theorem State.unbindRole_binding (s : State) (k : Aud) (r : Role) : (s.unbindRole k r).binding k r = none := by
  unfold State.binding State.unbindRole
  rw [List.find?_eq_none]
  intro x hx
  obtain ⟨-, hkept⟩ := List.mem_filter.mp hx
  simpa [imp_iff_not_or] using hkept

theorem State.unbindRole_binding_ne (s : State) (k : Aud) {r other : Role} (h : other ≠ r) :
    (s.unbindRole k r).binding k other = s.binding k other := by
  unfold State.binding State.unbindRole
  rw [List.find?_filter]
  refine congrArg (fun p => s.bindings.find? p) (funext fun x => ?_)
  by_cases hx : x.role = other
  · simp [hx, h, Bool.beq_eq_decide_eq]
  · simp [hx]

/-- R138: a release clears the binding bytes, tells the block and goes on. -/
theorem State.Standing.releaseBinding {i : Instr} {b : Batch} (h : s.Standing k i b) {x : Binding}
    (hr : r ≠ .showRecord) :
    let t := s.releaseBinding k r x
    s.GoesOn t k b
      ∧ s.ResultIssued t k b.next (0x01#8 ||| (if (s.aud k).unit.tag = .empty then 0#8 else 0x40#8))
          (List.replicate 16 0)
      ∧ s.TableIssued t (some k) r x.selector 14 2 [0, 0] .bindingWrite
      ∧ t.bindings = s.bindings.filter (fun y => !(y.aud == k && y.role == r))
      ∧ (∀ j, j ≠ k → t.aud j = s.aud j)
      ∧ t.aud k = { (s.aud k).retired r with
          unit := { (s.aud k).unit with tag := .empty, batch := (t.aud k).unit.batch } } := by
  intro t
  obtain ⟨y, hy, hlim⟩ := h.record
  obtain ⟨w, hflight, htag, htime, hwtag, hwpurpose, htable⟩ :=
    (s.unbindRole k r).writeBindingBytes_makes (some k) r x.selector clearedBytes .bindingWrite
  set f : Auditorium → Auditorium := fun a =>
    ({ a with unit := a.unit.waitFor [s.nextTag] } : Auditorium).retired r with hf
  set u := ((s.unbindRole k r).writeBindingBytes (some k) r x.selector clearedBytes .bindingWrite).modAud k f with hu
  have haudu : u.aud k = { (s.aud k).retired r with unit := (s.aud k).unit.waitFor [s.nextTag] } := by
    refine (State.aud_modAud_same _ k f).trans ?_
    exact (s.aud k).retired_withUnit r _
  have hreset : tagResetBit (u.tagHeld k) = if (s.aud k).unit.tag = .empty then 0#8 else 0x40#8 := by
    rw [State.tagResetBit_tagHeld, haudu]
    rfl
  have ht : t = (u.emptyTag k).decide k
      (0x01#8 ||| (if (s.aud k).unit.tag = .empty then 0#8 else 0x40#8)) zeroReply := by
    have hsettle : t = u.settle k 0 := by
      have hcompose : (((s.unbindRole k r).writeBindingBytes (some k) r x.selector clearedBytes .bindingWrite).await k
          (some s.nextTag)).retireRole k r = u := by
        rw [State.retireRole_eq, State.await, State.modUnit_def, State.modAud_modAud]
        rfl
      rw [← hcompose]
      rfl
    rw [hsettle]
    unfold State.settle
    rw [hreset]
    rfl
  have hemptied : (u.emptyTag k).aud k
      = { (s.aud k).retired r with unit := { (s.aud k).unit.waitFor [s.nextTag] with tag := .empty } } := by
    refine (State.aud_modAud_same u k fun a => { a with unit := { a.unit with tag := .empty } }).trans ?_
    rw [haudu]
  obtain ⟨hgoes, hissued, honly, haud, hprefix⟩ := State.decides (s := s) (s' := u.emptyTag k) (k := k) (b := b)
    (made := [w]) hflight
    (fun a ha => by rw [List.mem_singleton.mp ha, hwpurpose]; exact fun g => nomatch g)
    (Nat.le_of_lt (Nat.lt_of_lt_of_eq (Nat.lt_succ_self s.nextTag) htag.symm)) htime
    (s.unbindRole_binding_ne k (Ne.symm hr)) hy hlim
    (by rw [hemptied]; simp [DirectiveUnit.waitFor, h.batch, Access.isAwaited, hwpurpose, hwtag]; rfl) h.within
    (0x01#8 ||| (if (s.aud k).unit.tag = .empty then 0#8 else 0x40#8)) zeroReply
  rw [← ht] at hgoes hissued honly haud hprefix
  rw [padTo_zeroReply] at hissued
  refine ⟨hgoes, hissued, ?_, honly.bindings, fun j hj => ?_, ?_⟩
  · exact htable t (hprefix.subset (by rw [show (u.emptyTag k).inFlight = _ from hflight]; simp))
  · exact (honly.others j hj).trans ((State.aud_modAud_ne u _ hj).trans (State.aud_modAud_ne _ f hj))
  · rw [haud, hemptied]
    rfl

end Release

/-- Settles O42: a bad role, a role that is not held or not to be released now, and a release. -/
theorem releaseRemovesTheBinding : Obligations.ReleaseRemovesTheBinding := by
  unfold Obligations.ReleaseRemovesTheBinding
  intro k role b s h reset
  refine ⟨s.doRelease k role, congrArg Host.Outcome.next (h.takes fun s => s.doRelease k role), ?_⟩
  have hunnamed {r : Role} (hcode : r.code = role) (hr : r ≠ .showRecord) {p : Prop}
      (g : role.toNat < 2 ∨ 7 < role.toNat) : p := by
    have hnone := directiveRole_eq_none_iff (code := role).mpr (by omega)
    exact nomatch hnone.symm.trans (directiveRole_eq_some_iff.mpr ⟨hcode, hr⟩)
  cases hnamed : directiveRole role with
  | none =>
    have d : State.Decided s (s.doRelease k role) k b
        (0x05#8 ||| (if (s.aud k).unit.tag = .empty then 0#8 else 0x40#8)) (List.replicate 16 0)
        { s.aud k with unit := { (s.aud k).unit with tag := .empty } } := by
      rw [State.doRelease_badRole hnamed]
      exact h.refused cParameter
    have hbad := directiveRole_eq_none_iff.mp hnamed
    refine ⟨by rw [d.aud], d.goesOn, by rw [d.aud], fun _ => ⟨d.only.bindings, d.issued⟩,
      fun r hcode hr => hunnamed hcode hr (by omega), fun r x hcode hr => hunnamed hcode hr (by omega), by rw [d.aud],
      by rw [d.aud], by rw [d.aud], by rw [d.aud], d.only.others⟩
  | some r =>
    obtain ⟨hcode, hr⟩ := directiveRole_eq_some_iff.mp hnamed
    have hsame {r' : Role} (hcode' : r'.code = role) (hr' : r' ≠ .showRecord) : r' = r :=
      Option.some.inj ((directiveRole_eq_some_iff.mpr ⟨hcode', hr'⟩).symm.trans hnamed)
    by_cases hfree : s.binding k r ≠ none ∧ releaseAllowed r (s.aud k).unit.showState = true
    · obtain ⟨x, hx⟩ := Option.ne_none_iff_exists'.mp hfree.1
      obtain ⟨hgoes, hissued, htable, hbindings, hothers, haud⟩ := h.releaseBinding (x := x) hr
      rw [State.doRelease_allowed hnamed hx hfree.2]
      generalize s.releaseBinding k r x = t at hgoes hissued htable hbindings hothers haud
      refine ⟨?_, hgoes, ?_, fun g => hunnamed hcode hr g, ?_, ?_, ?_, ?_, ?_, ?_, hothers⟩
      · rw [haud]; exact Auditorium.retired_epochs _ r
      · rw [haud]
      · intro r' hcode' hr' hwhy
        obtain rfl := hsame hcode' hr'
        obtain hnone | ⟨hrole, hshow⟩ := hwhy
        · exact absurd hnone hfree.1
        · exact absurd (releaseAllowed_iff.mp hfree.2 hrole) hshow
      · intro r' x' hcode' hr' hx' _
        obtain rfl := hsame hcode' hr'
        obtain rfl := Option.some.inj (hx.symm.trans hx')
        have hnone : t.binding k r' = none :=
          (State.binding_congr (s := s.unbindRole k r') hbindings k r').trans (s.unbindRole_binding k r')
        refine ⟨hnone, hbindings, htable, hissued, ?_⟩
        rw [haud]
        refine ⟨?_, ?_, ?_, ?_, ?_⟩ <;> rintro rfl
        · rfl
        · exact ⟨rfl, rfl, rfl⟩
        · exact ⟨rfl, rfl, rfl⟩
        · exact ⟨rfl, rfl, rfl⟩
        · exact ⟨rfl, rfl⟩
      · rw [haud]; exact Auditorium.retired_clock _ r
      · rw [haud]; exact Auditorium.retired_builder _ r
      · rw [haud]; exact Auditorium.retired_link _ r
      · rw [haud]; exact Auditorium.retired_receiver _ r
    · have d : State.Decided s (s.doRelease k role) k b
          (0x03#8 ||| (if (s.aud k).unit.tag = .empty then 0#8 else 0x40#8)) (List.replicate 16 0)
          { s.aud k with unit := { (s.aud k).unit with tag := .empty } } := by
        cases hx : s.binding k r with
        | none =>
          rw [State.doRelease_unheld hnamed hx]
          exact h.refused cIllegal
        | some x =>
          rw [State.doRelease_notAllowed hnamed hx fun g => hfree ⟨by rw [hx]; exact Option.some_ne_none x, g⟩]
          exact h.refused cIllegal
      refine ⟨by rw [d.aud], d.goesOn, by rw [d.aud], fun g => hunnamed hcode hr g, fun r' hcode' hr' _ => ?_,
        fun r' x hcode' hr' hx hallowed => ?_, by rw [d.aud], by rw [d.aud], by rw [d.aud], by rw [d.aud],
        d.only.others⟩
      · exact ⟨d.only.bindings, d.issued⟩
      · obtain rfl := hsame hcode' hr'
        exact absurd ⟨by rw [hx]; exact Option.some_ne_none x, releaseAllowed_iff.mpr hallowed⟩ hfree

end Sys2Proof.Machine
end

section
/-! SUPPORT. RETRACT (R172 to R175). -/

namespace Sys2Proof.Machine

/-! ## The treatment of one index (R173, R174) -/

/-- R173: what the Builder is sent for an index. -/
def Judgement.removal : Judgement → List SeqOut
  | .active c cue => [.remove c cue .retracted]
  | .past => []
  | .staged => []
  | .ahead => []

/-- R173: what becomes of the Sequencer. -/
def Judgement.leaves (j : Judgement) (i : Nat) (q : Sequencer) : Sequencer :=
  match j with
  | .active c cue => { q with active := removeActive q.active c cue }
  | .past => q
  | .staged => { q with window := q.window.map (markSlot i) }
  | .ahead => q

/-- R173: what becomes of the blocks, the Builder taking requests where `live`. -/
def Auditorium.retracts (live : Bool) (l : List (Nat × Judgement)) (a : Auditorium) : Auditorium :=
  { a with
    seq := l.foldl (fun q x => x.2.leaves x.1 q) a.seq
    builder := if live then a.builder.heedAll a.unit.channels.copies (l.flatMap fun x => x.2.removal) else a.builder }

theorem Auditorium.retracts_nil (live : Bool) (a : Auditorium) : a.retracts live [] = a := by
  cases live <;> rfl

theorem Auditorium.retracts_cons (live : Bool) (x : Nat × Judgement) (l : List (Nat × Judgement)) (a : Auditorium) :
    a.retracts live (x :: l) = (a.retracts live [x]).retracts live l := by
  cases live with
  | false => rfl
  | true =>
    unfold Auditorium.retracts
    simp only [List.flatMap_cons, List.flatMap_nil, List.append_nil, List.foldl_cons, List.foldl_nil, if_true,
      Builder.heedAll_append]

theorem State.modAud_congr {s : State} {k : Aud} {f g : Auditorium → Auditorium} (h : f (s.aud k) = g (s.aud k)) :
    s.modAud k f = s.modAud k g := congrArg (s.setAud k) h

section One
variable {s : State} {k : Aud}

/-- R174: the flag write of an entry within the region is made, and the batch waits for it. -/
theorem State.writeFlag_made {x : Binding} (hx : s.binding k .cues = some x) {i : Nat}
    (hl : entryOffset i + 18 ≤ x.limit.toNat) : s.writeFlag k i
      = (s.throughBinding x (entryOffset i + 18) 1 [1] .flagWrite).modAud k
          fun a => { a with unit := a.unit.waitFor [s.nextTag] } := by
  unfold State.writeFlag
  rw [State.access_made hx (by omega)]
  rfl

/-- R173, R174: an index that is not past changes the blocks, and then gets its flag write. -/
theorem State.retractOne_flagged (i : Nat) {j : Judgement} (h : j ≠ .past) :
    s.retractOne k i j = (s.modAud k (Auditorium.retracts (s.builderTakes k) [(i, j)])).writeFlag k i := by
  cases j with
  | past => exact absurd rfl h
  | ahead =>
    refine congrArg (fun u : State => u.writeFlag k i) ((s.modAud_id k).symm.trans ?_)
    refine congrArg (s.modAud k) (funext fun a => ?_)
    cases s.builderTakes k <;> rfl
  | staged =>
    refine congrArg (fun u : State => u.writeFlag k i) ?_
    rw [State.modSeq_def]
    refine congrArg (s.modAud k) (funext fun a => ?_)
    cases s.builderTakes k <;> rfl
  | active c cue =>
    refine congrArg (fun u : State => u.writeFlag k i) ?_
    rw [State.seqStep_eq]
    change (s.askBuilder k _).modAud k _ = _
    unfold State.askBuilder
    split
    · next hlive =>
      rw [hlive, State.modBuilder_def, State.modAud_modAud]
      exact State.modAud_congr rfl
    · next hlive =>
      rw [Bool.eq_false_iff.mpr hlive]
      exact State.modAud_congr rfl

end One

/-! ## The treatment of a range (R173, R174) -/

/-- R173: the indices that get a flag write. -/
def flagged (l : List (Nat × Judgement)) : List Nat := (l.filter fun x => x.2 ≠ .past).map Prod.fst

/-- From `s` to `t` the indices of `l`, as judged, were retracted, with the flag writes `made`. -/
structure State.Retracts (k : Aud) (l : List (Nat × Judgement)) (s t : State) (made : List Access) : Prop where
  makes : State.Makes k s t made
  only : State.OnlyAud k s t
  writes : ∀ a ∈ made, a.role = .cues ∧ a.length = 1 ∧ a.data = [1]
  purpose : ∀ a ∈ made, a.purpose = .flagWrite
  offsets : made.map Access.offset = (flagged l).map fun i => entryOffset i + 18
  aud : t.aud k = { (s.aud k).retracts (s.builderTakes k) l with
    unit := (s.aud k).unit.waitFor (made.map Access.tag) }

section Range
variable {k : Aud} {x : Binding}

theorem State.retracts_one {s : State} (hx : s.binding k .cues = some x) {i : Nat} (j : Judgement)
    (hl : entryOffset i + 18 ≤ x.limit.toNat) : ∃ made, State.Retracts k [(i, j)] s (s.retractOne k i j) made := by
  by_cases hj : j = .past
  · subst hj
    refine ⟨[], .refl k s, .refl k s, (fun _ h => nomatch h), (fun _ h => nomatch h), rfl, ?_⟩
    rw [List.map_nil, DirectiveUnit.waitFor_nil]
    unfold Auditorium.retracts
    cases s.builderTakes k <;> rfl
  · rw [State.retractOne_flagged i hj]
    generalize hu : s.modAud k (Auditorium.retracts (s.builderTakes k) [(i, j)]) = u
    have hxu : u.binding k .cues = some x := by rw [← hu]; exact hx
    have haudu : u.aud k = (s.aud k).retracts (s.builderTakes k) [(i, j)] := by
      rw [← hu]
      exact State.aud_modAud_same s k _
    obtain ⟨a, hmakes, hrole, hoffset, hlength, hdata, hpurpose, htag⟩ :=
      State.makes_throughBinding hxu (entryOffset i + 18) 1 [1] .flagWrite
    rw [State.writeFlag_made hxu hl]
    refine ⟨[a], ?_, ?_, fun b hb => ?_, fun b hb => by rw [List.mem_singleton.mp hb]; exact hpurpose, ?_, ?_⟩
    · rw [← hu] at hmakes ⊢
      exact hmakes.of_modAud.then_modAud _
    · have honly : State.OnlyAud k s u := by
        rw [← hu]
        exact s.onlyAud_modAud k _
      exact (honly.trans (u.onlyAud_issue k _)).trans (State.onlyAud_modAud _ k _)
    · rw [List.mem_singleton.mp hb]
      exact ⟨hrole, hlength, hdata⟩
    · simp [flagged, hj, hoffset]
    · refine (State.aud_modAud_same _ k _).trans ?_
      have haud : (u.throughBinding x (entryOffset i + 18) 1 [1] .flagWrite).aud k = u.aud k := rfl
      rw [haud, haudu, List.map_singleton, htag]
      rfl

theorem flagged_append (l m : List (Nat × Judgement)) : flagged (l ++ m) = flagged l ++ flagged m := by
  simp [flagged]

theorem State.retracts_all (l : List (Nat × Judgement)) :
    ∀ s : State, s.binding k .cues = some x → (∀ y ∈ l, entryOffset y.1 + 18 ≤ x.limit.toNat) →
      ∃ made, State.Retracts k l s (l.foldl (fun s y => s.retractOne k y.1 y.2) s) made := by
  induction l with
  | nil =>
    refine fun s _ _ => ⟨[], .refl k s, .refl k s, (fun _ h => nomatch h), (fun _ h => nomatch h), rfl, ?_⟩
    rw [Auditorium.retracts_nil, List.map_nil, DirectiveUnit.waitFor_nil]
    rfl
  | cons y rest ih =>
    intro s hx hl
    obtain ⟨m, hm⟩ := State.retracts_one hx y.2 (hl y List.mem_cons_self)
    generalize hu : s.retractOne k y.1 y.2 = u at hm
    obtain ⟨n, hn⟩ := ih u ((State.binding_congr hm.makes.bindings k .cues).trans hx) fun z hz =>
      hl z (List.mem_cons_of_mem _ hz)
    rw [List.foldl_cons, hu]
    refine ⟨m ++ n, hm.makes.trans hn.makes, hm.only.trans hn.only,
      fun a ha => (List.mem_append.mp ha).elim (hm.writes a) (hn.writes a),
      fun a ha => (List.mem_append.mp ha).elim (hm.purpose a) (hn.purpose a), ?_, ?_⟩
    · rw [List.map_append, hm.offsets, hn.offsets, ← List.map_append, ← flagged_append]
      rfl
    · have htakes : u.builderTakes k = s.builderTakes k := by
        unfold State.builderTakes
        rw [hm.only.partState, hm.aud]
        rfl
      rw [hn.aud, htakes, hm.aud, Auditorium.retracts_cons _ y rest, List.map_append, ← DirectiveUnit.waitFor_waitFor]
      rfl

end Range

/-! ## The Sequencer after a range (R173) -/

/-- R173: a slot after the range `l`. -/
def markAll (l : List (Nat × Judgement)) (y : Slot) : Slot :=
  if l.any fun x => x.1 == y.index && x.2 == .staged then { y with retracted := true } else y

theorem markAll_cons_staged (i : Nat) (l : List (Nat × Judgement)) (y : Slot) :
    markAll ((i, .staged) :: l) y = markAll l (markSlot i y) := by
  unfold markAll markSlot
  by_cases h : y.index = i
  · subst h
    simp
  · have hne : i ≠ y.index := Ne.symm h
    simp [h, hne]

theorem markAll_cons_other (i : Nat) {j : Judgement} (h : j ≠ .staged) (l : List (Nat × Judgement)) :
    markAll ((i, j) :: l) = markAll l := by
  funext y
  unfold markAll
  simp [h]

theorem markAll_nil : markAll [] = id := rfl

/-- R173: what becomes of the Sequencer over a range. -/
theorem leaves_all (l : List (Nat × Judgement)) : ∀ q : Sequencer,
    ∃ active, l.foldl (fun q x => x.2.leaves x.1 q) q = { q with active := active, window := q.window.map (markAll l) }
      ∧ ∀ c : Channel, active[c] = q.active[c].filter fun y => !(l.any fun x => x.2 == .active c y.cue) := by
  induction l with
  | nil =>
    refine fun q => ⟨q.active, ?_, fun c => ?_⟩
    · rw [markAll_nil, List.map_id]
      rfl
    · simp
  | cons x rest ih =>
    obtain ⟨i, j⟩ := x
    intro q
    obtain ⟨active, hq, hactive⟩ := ih (j.leaves i q)
    refine ⟨active, hq.trans ?_, fun c => (hactive c).trans ?_⟩
    · cases j with
      | staged =>
        have hmark : markAll ((i, .staged) :: rest) = markAll rest ∘ markSlot i := funext (markAll_cons_staged i rest)
        rw [hmark, ← List.map_map]
        rfl
      | active c cue => rw [markAll_cons_other i (j := .active c cue) (fun g => nomatch g)]; rfl
      | past => rw [markAll_cons_other i (j := .past) (fun g => nomatch g)]; rfl
      | ahead => rw [markAll_cons_other i (j := .ahead) (fun g => nomatch g)]; rfl
    · have hother (hne : ∀ cue, j ≠ .active c cue) : (q.active[c].filter fun y =>
            !(rest.any fun x => x.2 == .active c y.cue))
          = q.active[c].filter fun y => !(((i, j) :: rest).any fun x => x.2 == .active c y.cue) :=
        List.filter_congr fun y _ => by rw [List.any_cons, beq_eq_false_iff_ne.mpr (hne y.cue), Bool.false_or]
      cases j with
      | staged => exact hother fun _ g => nomatch g
      | past => exact hother fun _ g => nomatch g
      | ahead => exact hother fun _ g => nomatch g
      | active d cue =>
        have hleaves : (Judgement.leaves (.active d cue) i q).active = removeActive q.active d cue := rfl
        rw [hleaves, removeActive_channel]
        by_cases hc : c = d
        · subst hc
          rw [if_pos rfl, List.filter_filter]
          refine List.filter_congr fun y _ => ?_
          rw [List.any_cons]
          by_cases hy : y.cue = cue
          · rw [hy]
            simp
          · rw [beq_eq_false_iff_ne.mpr fun g => hy (Judgement.active.inj g).2.symm]
            simp [hy]
        · rw [if_neg hc]
          exact hother fun _ g => hc (Judgement.active.inj g).1.symm

/-! ## The indices as judged (R173) -/

section Judged
variable {q : Sequencer}
  (hnodup : ∀ c : Channel, (q.active[c].map fun y => y.cue.index).Nodup)
  (honly : ∀ c d : Channel, ∀ y ∈ q.active[c], ∀ z ∈ q.active[d], y.cue.index = z.cue.index → c = d)

/-- Some cue on a screen has this index. -/
def Sequencer.shows (q : Sequencer) (i : Nat) : Bool :=
  ([0, 1, 2, 3] : List Channel).any fun c => q.active[c].any fun y => y.cue.index == i

theorem Sequencer.shows_iff {i : Nat} : q.shows i = true ↔ ∃ c : Channel, ∃ y ∈ q.active[c], y.cue.index = i := by
  unfold Sequencer.shows
  simp only [List.any_eq_true, beq_iff_eq]
  exact ⟨fun ⟨c, _, h⟩ => ⟨c, h⟩, fun ⟨c, h⟩ => ⟨c, mem_channelList c, h⟩⟩

theorem Sequencer.activeOfIndex_none {i : Nat} : q.activeOfIndex i = none ↔ ¬q.shows i = true := by
  unfold Sequencer.activeOfIndex
  rw [List.findSome?_eq_none_iff, Sequencer.shows_iff]
  simp only [Option.map_eq_none_iff, List.find?_eq_none, beq_iff_eq]
  exact ⟨fun h ⟨c, y, hy, hi⟩ => h c (mem_channelList c) y hy hi, fun h c _ y hy hi => h ⟨c, y, hy, hi⟩⟩

theorem Sequencer.activeOfIndex_some {i : Nat} {c : Channel} {cue : CueId} (h : q.activeOfIndex i = some (c, cue)) :
    ∃ y ∈ q.active[c], y.cue = cue ∧ cue.index = i := by
  unfold Sequencer.activeOfIndex at h
  obtain ⟨d, -, hd⟩ := List.exists_of_findSome?_eq_some h
  obtain ⟨y, hy, heq⟩ := Option.map_eq_some_iff.mp hd
  obtain ⟨rfl, rfl⟩ := Prod.mk.inj heq
  exact ⟨y, List.mem_of_find?_eq_some hy, rfl,
    beq_iff_eq.mp (List.find?_some (p := fun a : ActiveCue => a.cue.index == i) hy)⟩

theorem Sequencer.judge_active {i : Nat} {c : Channel} {cue : CueId} :
    q.judge i = .active c cue ↔ q.activeOfIndex i = some (c, cue) := by
  unfold Sequencer.judge
  split
  · next h => simp [h]
  · next h =>
    rw [h]
    split
    · simp
    · split <;> simp

theorem Sequencer.judge_past {i : Nat} : q.judge i = .past ↔ i < q.cursor ∧ ¬q.shows i = true := by
  rw [← Sequencer.activeOfIndex_none]
  unfold Sequencer.judge
  split
  · next h => simp [h]
  · next h =>
    split
    · next hi => simp [hi, h]
    · next hi => split <;> simp [hi]

theorem Sequencer.judge_staged {i : Nat} :
    q.judge i = .staged ↔ ¬i < q.cursor ∧ ¬q.shows i = true ∧ ∃ y ∈ q.window, y.index = i := by
  rw [← Sequencer.activeOfIndex_none]
  unfold Sequencer.judge
  split
  · next h => simp [h]
  · next h =>
    split
    · next hi => simp [hi]
    · next hi => split <;> simp_all

include hnodup honly

theorem Sequencer.activeOfIndex_of_mem {c : Channel} {y : ActiveCue} (hy : y ∈ q.active[c]) :
    q.activeOfIndex y.cue.index = some (c, y.cue) := by
  cases h : q.activeOfIndex y.cue.index with
  | none => exact absurd (Sequencer.shows_iff.mpr ⟨c, y, hy, rfl⟩) (Sequencer.activeOfIndex_none.mp h)
  | some found =>
    obtain ⟨d, cue⟩ := found
    obtain ⟨z, hz, rfl, hindex⟩ := Sequencer.activeOfIndex_some h
    obtain rfl := honly d c z hz y hy hindex
    rw [List.inj_on_of_nodup_map (hnodup d) hz hy hindex]

omit honly in
theorem Sequencer.filter_index {c : Channel} {y : ActiveCue} (hy : y ∈ q.active[c]) :
    (q.active[c].filter fun z => z.cue.index == y.cue.index) = [y] := by
  have hmem (z : ActiveCue) : z ∈ q.active[c].filter (fun z => z.cue.index == y.cue.index) ↔ z ∈ [y] := by
    rw [List.mem_filter, List.mem_singleton, beq_iff_eq]
    exact ⟨fun ⟨hz, hindex⟩ => List.inj_on_of_nodup_map (hnodup c) hz hy hindex, by rintro rfl; exact ⟨hy, rfl⟩⟩
  exact List.perm_singleton.mp ((List.perm_ext_iff_of_nodup ((List.Nodup.of_map _ (hnodup c)).filter _)
    (List.nodup_singleton y)).mpr hmem)

/-- R173: an active cue alone gets a removal. -/
theorem Sequencer.judge_removal (i : Nat) : (q.judge i).removal
    = ([0, 1, 2, 3] : List Channel).flatMap fun c =>
        (q.active[c].filter fun y => y.cue.index == i).map fun y => .remove c y.cue .retracted := by
  cases h : q.activeOfIndex i with
  | none =>
    have hshows := Sequencer.activeOfIndex_none.mp h
    have hnone : (q.judge i).removal = [] := by
      cases hj : q.judge i with
      | active c cue => exact nomatch h.symm.trans (Sequencer.judge_active.mp hj)
      | past => rfl
      | staged => rfl
      | ahead => rfl
    rw [hnone]
    refine (List.flatMap_eq_nil_iff.mpr fun c _ => ?_).symm
    rw [List.map_eq_nil_iff, List.filter_eq_nil_iff]
    exact fun y hy hi => hshows (Sequencer.shows_iff.mpr ⟨c, y, hy, beq_iff_eq.mp hi⟩)
  | some found =>
    obtain ⟨c, cue⟩ := found
    obtain ⟨y, hy, rfl, rfl⟩ := Sequencer.activeOfIndex_some h
    have hremoval : (q.judge y.cue.index).removal = [.remove c y.cue .retracted] := by
      rw [Sequencer.judge_active.mpr h]
      rfl
    rw [hremoval]
    have heach (d : Channel) : ((q.active[d].filter fun z => z.cue.index == y.cue.index).map fun z =>
        SeqOut.remove d z.cue .retracted) = if d = c then [.remove c y.cue .retracted] else [] := by
      split
      · next hd => rw [hd, Sequencer.filter_index hnodup hy]; rfl
      · next hd =>
        rw [List.map_eq_nil_iff, List.filter_eq_nil_iff]
        exact fun z hz hi => hd (honly d c z hz y hy (beq_iff_eq.mp hi))
    simp only [heach]
    generalize SeqOut.remove c y.cue .retracted = o
    clear heach hremoval h hy
    fin_cases c <;> rfl

end Judged

/-! ## The range (R173) -/

theorem retractIndices_eq (first last : Nat) (untags : List Nat) : retractIndices first last untags
    = (List.range (last + 1)).filter fun i => Decidable.decide (first ≤ i) && !untags.contains i := by
  unfold retractIndices
  have hdrop (n : Nat) : (List.range n).drop first = (List.range n).filter fun i => Decidable.decide (first ≤ i) := by
    by_cases h : first ≤ n
    · obtain ⟨m, rfl⟩ := Nat.exists_eq_add_of_le h
      have hlow : (List.range first).filter (fun i => Decidable.decide (first ≤ i)) = [] :=
        List.filter_eq_nil_iff.mpr fun i hi => by have := List.mem_range.mp hi; simp; omega
      rw [List.range_add, List.drop_left' List.length_range, List.filter_append, hlow, List.nil_append]
      refine (List.filter_eq_self.mpr fun i hi => ?_).symm
      obtain ⟨j, -, rfl⟩ := List.mem_map.mp hi
      simp
    · rw [List.drop_eq_nil_of_le (by simp; omega)]
      exact (List.filter_eq_nil_iff.mpr fun i hi => by have := List.mem_range.mp hi; simp; omega).symm
  rw [hdrop, List.filter_filter]
  exact List.filter_congr fun i _ => Bool.and_comm _ _

section Counted
variable (q : Sequencer) (chosen : List Nat)

/-- R173: the indices counted past. -/
def Sequencer.pastOf : List Nat := chosen.filter fun i => Decidable.decide (i < q.cursor) && !q.shows i

theorem Sequencer.mem_pastOf {i : Nat} : i ∈ q.pastOf chosen ↔ i ∈ chosen ∧ q.judge i = .past := by
  rw [Sequencer.judge_past]
  simp [Sequencer.pastOf]

theorem pastCount_judgeAll : pastCount (judgeAll q chosen) = (q.pastOf chosen).length := by
  unfold pastCount judgeAll Sequencer.pastOf
  rw [List.countP_map, List.countP_eq_length_filter]
  refine congrArg List.length (List.filter_congr fun i _ => Bool.eq_iff_iff.mpr ?_)
  simp [Sequencer.judge_past]

theorem flagged_judgeAll : flagged (judgeAll q chosen) = chosen.filter fun i => !(q.pastOf chosen).contains i := by
  unfold flagged judgeAll
  rw [List.filter_map, List.map_map]
  refine (List.map_id' _).trans (List.filter_congr fun i hi => Bool.eq_iff_iff.mpr ?_)
  simp [Sequencer.mem_pastOf, hi]

theorem removals_judgeAll (hnodup : ∀ c : Channel, (q.active[c].map fun y => y.cue.index).Nodup)
    (honly : ∀ c d : Channel, ∀ y ∈ q.active[c], ∀ z ∈ q.active[d], y.cue.index = z.cue.index → c = d) :
    ((judgeAll q chosen).flatMap fun x => x.2.removal)
      = chosen.flatMap fun i => ([0, 1, 2, 3] : List Channel).flatMap fun c =>
          (q.active[c].filter fun y => y.cue.index == i).map fun y => .remove c y.cue .retracted := by
  unfold judgeAll
  rw [List.flatMap_map]
  exact congrArg (chosen.flatMap ·) (funext fun i => Sequencer.judge_removal hnodup honly i)

theorem active_judgeAll (hnodup : ∀ c : Channel, (q.active[c].map fun y => y.cue.index).Nodup)
    (honly : ∀ c d : Channel, ∀ y ∈ q.active[c], ∀ z ∈ q.active[d], y.cue.index = z.cue.index → c = d) (c : Channel) :
    (q.active[c].filter fun y => !((judgeAll q chosen).any fun x => x.2 == .active c y.cue))
      = q.active[c].filter fun y => !chosen.contains y.cue.index := by
  refine List.filter_congr fun y hy => congrArg (!·) (Bool.eq_iff_iff.mpr ?_)
  have hfound := Sequencer.activeOfIndex_of_mem hnodup honly hy
  simp only [judgeAll, List.any_map, List.any_eq_true, Function.comp_apply, beq_iff_eq, List.contains_iff_mem,
    Sequencer.judge_active]
  constructor
  · rintro ⟨i, hi, h⟩
    obtain ⟨_, _, _, rfl⟩ := Sequencer.activeOfIndex_some h
    exact hi
  · exact fun hi => ⟨_, hi, hfound⟩

theorem window_judgeAll : q.window.map (markAll (judgeAll q chosen)) = q.window.map fun y =>
    if chosen.contains y.index && !(q.pastOf chosen).contains y.index && !q.shows y.index
    then { y with retracted := true } else y := by
  refine List.map_congr_left fun y hy => ?_
  have hmarked : ((judgeAll q chosen).any fun x => x.1 == y.index && x.2 == .staged)
      = (chosen.contains y.index && !(q.pastOf chosen).contains y.index && !q.shows y.index) := by
    refine Bool.eq_iff_iff.mpr ?_
    simp only [judgeAll, List.any_map, List.any_eq_true, Function.comp_apply, Bool.and_eq_true, beq_iff_eq,
      List.contains_iff_mem, Bool.not_eq_true', ← Bool.not_eq_true, Sequencer.mem_pastOf,
      Sequencer.judge_past, Sequencer.judge_staged]
    constructor
    · rintro ⟨i, hi, rfl, hcursor, hshows, -⟩
      exact ⟨⟨hi, fun g => hcursor g.2.1⟩, hshows⟩
    · rintro ⟨⟨hi, hpast⟩, hshows⟩
      exact ⟨y.index, hi, rfl, fun g => hpast ⟨hi, g, hshows⟩, hshows, y, hy, rfl⟩
  unfold markAll
  rw [hmarked]

end Counted

/-! ## RETRACT (R172, R175) -/

section Retract
variable {s : State} {k : Aud}

theorem State.holdsRole_iff {role : Role} : s.holdsRole k role = true ↔ s.binding k role ≠ none := by
  unfold State.holdsRole
  exact Option.isSome_iff_ne_none

theorem State.doRetract_unheld (h : s.binding k .cues = none) : s.doRetract k = s.settleTag k cIllegal zeroReply := by
  have hheld : s.holdsRole k .cues = false := Bool.eq_false_iff.mpr fun g => State.holdsRole_iff.mp g h
  unfold State.doRetract
  rw [hheld]
  rfl

theorem State.doRetract_outOfSequence (h : s.binding k .cues ≠ none)
    (htag : ∀ first last untags, (s.aud k).unit.tag ≠ .rangeSet first last untags) :
    s.doRetract k = s.settleTag k cSequence zeroReply := by
  unfold State.doRetract
  rw [State.holdsRole_iff.mpr h]
  cases g : (s.aud k).unit.tag with
  | empty => rfl
  | firstSet first => rfl
  | rangeSet first last untags => exact absurd g (htag first last untags)

theorem State.doRetract_seeking {first last : Nat} {untags : List Nat} (h : s.binding k .cues ≠ none)
    (htag : (s.aud k).unit.tag = .rangeSet first last untags) (hseek : (s.aud k).seq.state = .seeking) :
    s.doRetract k = s.settleTag k cBusy zeroReply := by
  unfold State.doRetract
  rw [State.holdsRole_iff.mpr h, htag]
  exact if_pos hseek

theorem State.doRetract_passes {first last : Nat} {untags : List Nat} (h : s.binding k .cues ≠ none)
    (htag : (s.aud k).unit.tag = .rangeSet first last untags) (hseek : (s.aud k).seq.state ≠ .seeking) :
    s.doRetract k = s.retractAll k (judgeAll (s.aud k).seq (retractIndices first last untags)) := by
  unfold State.doRetract
  rw [State.holdsRole_iff.mpr h, htag]
  exact if_neg hseek

/-- A RETRACT that is refused keeps the tag state (R168, R172). -/
theorem State.Standing.refusedTag {i : Instr} {b : Batch} (h : s.Standing k i b) (condition : Byte) :
    State.Decided s (s.settleTag k condition zeroReply) k b (0x01#8 ||| condition) (List.replicate 16 0) (s.aud k) := by
  have d := h.decided (fun a => a) rfl (0x01#8 ||| condition) zeroReply
  rw [State.modAud_id] at d
  exact d

end Retract

theorem padTo_retractReply (retracted past : Nat) :
    padTo 16 (retractReply retracted past) = leNat16 retracted ++ leNat16 past ++ List.replicate 12 0 := by
  unfold retractReply
  rw [padTo_idem]
  simp [padTo, List.take_append, List.take_of_length_le]

/-- An access stays issued while it is in flight. -/
theorem State.Issued.grows {s t u : State} {k : Aud} {role : Role} {offset length : Nat} {data : List Byte}
    {purpose : Purpose} (h : s.Issued t k role offset length data purpose) (hgrows : t.inFlight ⊆ u.inFlight) :
    s.Issued u k role offset length data purpose := by
  obtain ⟨x, hx, a, ha, hrest⟩ := h
  exact ⟨x, hx, a, hgrows ha, hrest⟩

/-- R173 to R175: a RETRACT that passes. -/
theorem State.Standing.retractAll {s : State} {k : Aud} {i : Instr} {b : Batch} (h : s.Standing k i b) {x : Binding}
    (hx : s.binding k .cues = some x) {l : List (Nat × Judgement)}
    (hl : ∀ y ∈ l, entryOffset y.1 + 18 ≤ x.limit.toNat) :
    let t := s.retractAll k l
    State.OnlyAud k s t ∧ s.GoesOn t k b
      ∧ s.ResultIssued t k b.next (0x01#8 ||| (if 0 < pastCount l then 0x80#8 else 0))
          (leNat16 (l.length - pastCount l) ++ leNat16 (pastCount l) ++ List.replicate 12 0)
      ∧ (∀ n ∈ flagged l, s.Issued t k .cues (entryOffset n + 18) 1 [1] .flagWrite)
      ∧ ((t.inFlight.drop s.inFlight.length).filter fun y => y.purpose == .flagWrite).map Access.offset
        = (flagged l).map (fun n => entryOffset n + 18)
      ∧ t.aud k = { (s.aud k).retracts (s.builderTakes k) l with
          unit := { (s.aud k).unit with tag := .empty, batch := (t.aud k).unit.batch } } := by
  intro t
  obtain ⟨made, hretracts⟩ := State.retracts_all l s hx hl
  obtain ⟨y, hy, hlim⟩ := h.record
  set f : Auditorium → Auditorium := fun a => { a with unit := { a.unit with tag := .empty } } with hf
  set u := (l.foldl (fun s x => s.retractOne k x.1 x.2) s).modAud k f with hu
  have ht : t = u.decide k (0x01#8 ||| (if 0 < pastCount l then 0x80#8 else 0))
      (retractReply (l.length - pastCount l) (pastCount l)) := rfl
  have hmakes : State.Makes k s u made := hretracts.makes.then_modAud f
  have honly : State.OnlyAud k s u := hretracts.only.trans (State.onlyAud_modAud _ k f)
  have haudu : u.aud k = { (s.aud k).retracts (s.builderTakes k) l with
      unit := { (s.aud k).unit.waitFor (made.map Access.tag) with tag := .empty } } := by
    refine (State.aud_modAud_same _ k f).trans ?_
    rw [hretracts.aud]
  have hawaited : made.filter Access.isAwaited = made := List.filter_eq_self.mpr fun a ha => by
    rw [Access.isAwaited, hretracts.purpose a ha]
    rfl
  have hbatch : (u.aud k).unit.batch
      = some { b with outstanding := b.outstanding ++ (made.filter Access.isAwaited).map Access.tag } := by
    rw [haudu, hawaited]
    simp [DirectiveUnit.waitFor, h.batch]
  have hbinding := State.binding_congr hmakes.bindings k .showRecord
  obtain ⟨hgoes, hissued, honlyt, haud, -⟩ := State.decides (s := s) (s' := u) (k := k) hmakes.inFlight
    (fun a ha => by rw [hretracts.purpose a ha]; exact fun g => nomatch g) hmakes.nextTag hmakes.houseTime hbinding
    hy hlim hbatch h.within (0x01#8 ||| (if 0 < pastCount l then 0x80#8 else 0))
    (retractReply (l.length - pastCount l) (pastCount l))
  obtain ⟨results, hresults, -⟩ := State.decide_resultsMade (0x01#8 ||| (if 0 < pastCount l then 0x80#8 else 0))
    (retractReply (l.length - pastCount l) (pastCount l)) (hbinding.trans hy) hlim hbatch h.within
  rw [← ht] at hgoes hissued honlyt haud hresults
  rw [padTo_retractReply] at hissued
  have hflight : t.inFlight = s.inFlight ++ (made ++ results) := by
    rw [hresults.inFlight, hmakes.inFlight, List.append_assoc]
  refine ⟨honly.trans honlyt, hgoes, hissued, fun n hn => ?_, ?_, ?_⟩
  · obtain ⟨a, ha, hoffset⟩ : ∃ a ∈ made, a.offset = entryOffset n + 18 :=
      List.mem_map.mp (hretracts.offsets ▸ List.mem_map_of_mem hn)
    obtain ⟨hrole, hlength, hdata⟩ := hretracts.writes a ha
    have hissue := hmakes.issued ha
    rw [hrole, hoffset, hlength, hdata, hretracts.purpose a ha] at hissue
    exact hissue.grows (hresults.inFlight ▸ List.subset_append_left _ _)
  · have hflags : made.filter (fun y => y.purpose == .flagWrite) = made := List.filter_eq_self.mpr fun a ha =>
      beq_iff_eq.mpr (hretracts.purpose a ha)
    have hnone : results.filter (fun y => y.purpose == .flagWrite) = [] := List.filter_eq_nil_iff.mpr fun a ha g =>
      nomatch (hresults.each a ha).purpose.symm.trans (beq_iff_eq.mp g)
    rw [hflight, List.drop_left, List.filter_append, hflags, hnone, List.append_nil, hretracts.offsets]
  · rw [haud, haudu]
    rfl

/-- Settles O52: the three refusals, and a RETRACT that judges every index of its range. -/
theorem retractMarksTheRangeOrIsRefused : Obligations.RetractMarksTheRangeOrIsRefused := by
  unfold Obligations.RetractMarksTheRangeOrIsRefused
  intro k b s h refusedWith
  have hexec : exec (.retract k) s = .next (s.doRetract k) :=
    congrArg Host.Outcome.next (h.takes fun s => s.doRetract k)
  have hrefuses {condition : Byte} (hs : s.doRetract k = s.settleTag k condition zeroReply) :
      refusedWith (0x01#8 ||| condition) := by
    have d := h.refusedTag condition
    rw [← hs] at d
    exact ⟨_, hexec, d.only, d.issued, d.goesOn, d.aud⟩
  refine ⟨fun hunheld => hrefuses (State.doRetract_unheld hunheld),
    fun hheld htag => hrefuses (State.doRetract_outOfSequence hheld htag),
    fun first last untags hheld htag hseek => hrefuses (State.doRetract_seeking hheld htag hseek), ?_⟩
  intro first last untags x hx htag hseek hlimit hnodup honly q isActive chosen past removals
  have hchosen : retractIndices first last untags = chosen := retractIndices_eq first last untags
  have hdo : s.doRetract k = s.retractAll k (judgeAll q chosen) := by
    rw [← hchosen]
    exact State.doRetract_passes (by rw [hx]; exact Option.some_ne_none x) htag hseek
  have hwithin : ∀ y ∈ judgeAll q chosen, entryOffset y.1 + 18 ≤ x.limit.toNat := by
    intro y hy
    obtain ⟨i, hi, rfl⟩ := List.mem_map.mp hy
    have := List.mem_range.mp (List.mem_filter.mp hi).1
    unfold entryOffset
    omega
  obtain ⟨honlyt, hgoes, hissued, hflags, hoffsets, haud⟩ := h.retractAll hx hwithin
  have hpast : pastCount (judgeAll q chosen) = past.length := pastCount_judgeAll q chosen
  have hflagged : flagged (judgeAll q chosen) = chosen.filter fun i => !past.contains i := flagged_judgeAll q chosen
  have hlength : (judgeAll q chosen).length = chosen.length := List.length_map _
  rw [← hdo] at honlyt hgoes hissued hflags hoffsets haud
  rw [hlength, hpast] at hissued
  rw [hflagged] at hflags hoffsets
  obtain ⟨active, hleaves, hactive⟩ := leaves_all (judgeAll q chosen) q
  have hseq : ((s.doRetract k).aud k).seq
      = { q with active := active, window := q.window.map (markAll (judgeAll q chosen)) } := by
    rw [haud]
    exact hleaves
  refine ⟨_, hexec, honlyt, hgoes, ?_, fun i hi hp => hflags i (List.mem_filter.mpr ⟨hi, by simpa using hp⟩), hoffsets,
    fun c => ?_, ?_⟩
  · by_cases hnone : past = []
    · rw [hnone] at hissued ⊢
      exact hissued
    · rw [if_pos (List.length_pos_iff.mpr hnone)] at hissued
      rw [if_neg hnone]
      exact hissued
  · rw [hseq]
    exact (hactive c).trans (active_judgeAll q chosen hnodup honly c)
  · have hbuilder : ((s.doRetract k).aud k).builder = ((s.seqSendAll k removals).aud k).builder := by
      rw [haud, State.seqSendAll_builder]
      change (if s.builderTakes k = true then _ else _) = _
      rw [removals_judgeAll q chosen hnodup honly]
    have hblocks : (s.doRetract k).aud k = { s.aud k with
        seq := ((s.doRetract k).aud k).seq
        builder := ((s.doRetract k).aud k).builder
        unit := { (s.aud k).unit with tag := .empty, batch := ((s.doRetract k).aud k).unit.batch } } := by
      generalize (s.doRetract k).aud k = y at haud ⊢
      rw [haud]
      rfl
    rw [hblocks, hbuilder]
    refine congrArg (fun q' : Sequencer => { s.aud k with
      seq := q', builder := ((s.seqSendAll k removals).aud k).builder
      unit := { (s.aud k).unit with tag := .empty, batch := ((s.doRetract k).aud k).unit.batch } }) ?_
    rw [hseq, window_judgeAll q chosen]
    rfl

end Sys2Proof.Machine
end

section
/-! SUPPORT. The tenth byte of a valid message (R3, R5 to R9), and what the clock and the blocks it signals hear of it
(R17, R23 to R31). -/

namespace Sys2Proof.Machine

/-! ## A valid message (R5 to R9) -/

/-- A field of two BCD digits. -/
theorem bcd_encoded {n : Nat} (h : n ≤ 99) : bcd (BitVec.ofNat 8 (16 * (n / 10) + n % 10)) = some n := by
  have hvalue : (BitVec.ofNat 8 (16 * (n / 10) + n % 10)).toNat = 16 * (n / 10) + n % 10 := by
    rw [BitVec.toNat_ofNat]
    omega
  rw [bcd_eq_some_iff, hvalue]
  omega

theorem editRate_coded {code rate : Nat} (h : (code, rate) ∈ [(0, 24), (1, 25), (2, 30), (3, 48), (4, 50), (5, 60)]) :
    editRate (BitVec.ofNat 8 code) = some rate := by
  simp only [List.mem_cons, Prod.mk.injEq, List.not_mem_nil, or_false] at h
  obtain ⟨rfl, rfl⟩ | ⟨rfl, rfl⟩ | ⟨rfl, rfl⟩ | ⟨rfl, rfl⟩ | ⟨rfl, rfl⟩ | ⟨rfl, rfl⟩ := h <;> rfl

theorem editRate_bounds {code rate : Nat} (h : (code, rate) ∈ [(0, 24), (1, 25), (2, 30), (3, 48), (4, 50), (5, 60)]) :
    rate ≤ 60 ∧ rate * (48000 / rate) = 48000 := by
  simp only [List.mem_cons, Prod.mk.injEq, List.not_mem_nil, or_false] at h
  obtain ⟨rfl, rfl⟩ | ⟨rfl, rfl⟩ | ⟨rfl, rfl⟩ | ⟨rfl, rfl⟩ | ⟨rfl, rfl⟩ | ⟨rfl, rfl⟩ := h <;> decide

/-- R7: every position of a valid message and every trim lie within the 32 bits of a show time. -/
theorem position_lt {hours minutes seconds frame rate : Nat} (hrate : rate * (48000 / rate) = 48000) (hh : hours ≤ 23)
    (hm : minutes ≤ 59) (hs : seconds ≤ 59) (hf : frame < rate) :
    (((hours * 60 + minutes) * 60 + seconds) * rate + frame) * (48000 / rate) < 86400 * 48000 := by
  have hunits : ((hours * 60 + minutes) * 60 + seconds) * rate + frame < 86400 * rate := by
    have hseconds : ((hours * 60 + minutes) * 60 + seconds) + 1 ≤ 86400 := by omega
    calc ((hours * 60 + minutes) * 60 + seconds) * rate + frame
        < (((hours * 60 + minutes) * 60 + seconds) + 1) * rate := by rw [Nat.add_mul _ 1, Nat.one_mul]; omega
      _ ≤ 86400 * rate := Nat.mul_le_mul_right rate hseconds
  have hticks : 0 < 48000 / rate := Nat.pos_of_ne_zero fun g => by rw [g] at hrate; omega
  calc (((hours * 60 + minutes) * 60 + seconds) * rate + frame) * (48000 / rate)
      < 86400 * rate * (48000 / rate) := Nat.mul_lt_mul_of_pos_right hunits hticks
    _ = 86400 * 48000 := by rw [Nat.mul_assoc, hrate]

/-- R8: the trimmed position, floored at 0. -/
theorem trimmed_eq (ticks : Nat) (trim : Int) : trimmed ticks trim = BitVec.ofInt 32 (max 0 (ticks + trim)) := by
  unfold trimmed
  rw [show max 0 ((ticks : Int) + trim) = (((ticks : Int) + trim).toNat : Int) by omega, BitVec.ofInt_natCast]

/-- R3, R5 to R9: the tenth byte of a valid message. -/
theorem Receiver.take_accepts {r : Receiver} (hstate : r.state = .assembling) {t0 now first : Word}
    (htick : r.latestTick = some t0) (htimely : (now - t0).toNat ≤ 96) (hfirst : r.firstTick = some first) {b : Byte}
    {body : List Byte} (hbuffer : r.buffer = body) (hlength : body.length = 9) {st : ServerState} {ticks : Nat}
    (hvalid : validate (body ++ [b]) r.lastSequence = some (st, ticks)) (trim : Int) :
    r.take now b trim = ({ r.toHunting with lastSequence := some (byteAt (body ++ [b]) 8) },
      some { state := st, showTime := trimmed ticks trim, arrival := first }) := by
  rw [Receiver.take_timely hstate htick htimely]
  unfold Receiver.append
  rw [hbuffer]
  refine (if_pos ?_).trans ?_
  · simp [hlength]
  · unfold Receiver.complete
    rw [hvalid, hfirst]
    rfl

/-! ## What a report does to the blocks (R17, R23, R26) -/

/-- From `s` to `t` the receiver of auditorium `k` becomes `r`, and its clock answers `a`. -/
structure State.Hears (s t : State) (k : Aud) (r : Receiver) (a : ClockAnswer) : Prop where
  only : State.OnlyAud k s t
  receiver : (t.aud k).receiver = r
  clock : (t.aud k).clock = a.clock
  link : (t.aud k).link = (s.aud k).link
  unit : (t.aud k).unit = (s.aud k).unit
  epochs : (t.aud k).epochs = (s.aud k).epochs
  writer : (t.aud k).writer = ((s.reportAll k a.reports).aud k).writer
  inFlight : t.inFlight = (s.reportAll k a.reports).inFlight
  quiet : a.signal = none → (t.aud k).seq = (s.aud k).seq ∧ (t.aud k).builder = (s.aud k).builder
    ∧ (t.aud k).mixer = (s.aud k).mixer
  signals : ∀ sig, a.signal = some sig → (t.aud k).seq = ((s.aud k).seq.obey (s.seqEnv k) sig).1
    ∧ (t.aud k).mixer = (s.aud k).mixer.markResync
    ∧ (t.aud k).builder = (((s.signalBuilder k).seqSendAll k ((s.aud k).seq.obey (s.seqEnv k) sig).2).aud k).builder

theorem State.signalBuilder_inFlight (s : State) (k : Aud) : (s.signalBuilder k).inFlight = s.inFlight := by
  unfold State.signalBuilder
  split <;> rfl

theorem Sequencer.seat_toBuilder (q : Sequencer) (env : SeqEnv) (target : Word) :
    ∀ o ∈ (q.seat env target).2, o.toBuilder = true := by
  unfold Sequencer.seat
  cases q.state with
  | walking => exact screenRequests_toBuilder _ _
  | idle =>
    dsimp only
    split <;> exact fun _ h => nomatch h
  | seeking => exact fun _ h => nomatch h
  | faulted => exact fun _ h => nomatch h

theorem Sequencer.obey_toBuilder (q : Sequencer) (env : SeqEnv) (sig : Signal) :
    ∀ o ∈ (q.obey env sig).2, o.toBuilder = true := by
  cases sig with
  | seat target => exact q.seat_toBuilder env target
  | clear => exact q.clearOrder_toBuilder env

/-- A valid message is heard. -/
theorem State.takeByte_hears {s : State} {k : Aud} {b : Byte} {r : Receiver} {p : PositionReport}
    (h : (s.aud k).receiver.take s.houseTime b (s.aud k).clock.loop.trim = (r, some p)) :
    State.Hears s (s.takeByte k b) k r ((s.aud k).clock.report p) := by
  have hspares : SparesSending fun a => { a with receiver := r } := ⟨fun _ _ _ => rfl, fun _ => rfl⟩
  generalize ha : (s.aud k).clock.report p = a
  generalize hu : (s.modAud k fun a => { a with receiver := r }) = u
  have haudu : u.aud k = { s.aud k with receiver := r } := by rw [← hu, State.aud_modAud_same]
  have htake : s.takeByte k b = u.clockStep k a := by
    unfold State.takeByte
    rw [h]
    change (s.modAud k _).deliverReport k p = _
    rw [hu]
    unfold State.deliverReport
    rw [haudu, ← ha]
  have hreports : u.reportAll k a.reports = (s.reportAll k a.reports).modAud k fun a => { a with receiver := r } := by
    rw [← hu, State.reportAll_modAud s k hspares.sparesWriter]
  have honly : State.OnlyAud k s u := by rw [← hu]; exact s.onlyAud_modAud k _
  have honly' : State.OnlyAud k s (u.clockStep k a) := honly.trans (u.onlyAud_clockStep k a)
  have hunit : (u.aud k).unit = (s.aud k).unit := by rw [haudu]
  rw [htake]
  cases hsig : a.signal with
  | none =>
    have hstep : u.clockStep k a = (s.reportAll k a.reports).modAud k
        fun x => { x with receiver := r, clock := a.clock } := by
      rw [State.clockStep_quiet u k hsig, hreports, State.modAud_modAud]
    have haud : (u.clockStep k a).aud k = { s.aud k with
        receiver := r, clock := a.clock, writer := ((s.reportAll k a.reports).aud k).writer } := by
      rw [hstep, State.aud_modAud_same, State.reportAll_aud]
    refine ⟨honly', ?_, ?_, ?_, ?_, ?_, ?_, by rw [hstep]; rfl, fun _ => ?_, fun sig g => nomatch hsig.symm.trans g⟩
    all_goals rw [haud]
    exact ⟨rfl, rfl, rfl⟩
  | some sig =>
    have henv : u.seqEnv k = s.seqEnv k := by rw [← hu, State.seqEnv_modAud hspares]
    have hseq : (u.aud k).seq = (s.aud k).seq := by rw [haudu]
    obtain ⟨outs, houts⟩ : ∃ outs, outs = ((s.aud k).seq.obey (s.seqEnv k) sig).2 := ⟨_, rfl⟩
    obtain ⟨q, hq⟩ : ∃ q, q = ((s.aud k).seq.obey (s.seqEnv k) sig).1 := ⟨_, rfl⟩
    have hstep : u.clockStep k a = (((s.reportAll k a.reports).signalBuilder k).seqSendAll k outs).modAud k
        fun x => { x with receiver := r, clock := a.clock, mixer := x.mixer.markResync, seq := q } := by
      rw [State.clockStep_signals u k hsig, henv, hseq, hreports, State.signalBuilder_modAud hspares,
        State.seqSendAll_modAud hspares, State.modAud_modAud, ← houts, ← hq]
    have hbuilder := s.signalled_builder k a.reports outs
    obtain ⟨hwriter, hflight⟩ := State.seqSendAll_toBuilder ((s.reportAll k a.reports).signalBuilder k) k
      (l := outs) (houts ▸ Sequencer.obey_toBuilder _ _ sig)
    have hwriter' := (hwriter.trans ((s.reportAll k a.reports).signalBuilder_sameWriter k)).writer
    have hflight' := hflight.trans (State.signalBuilder_inFlight _ k)
    have hblocks : (((s.reportAll k a.reports).signalBuilder k).seqSendAll k outs).aud k = { s.aud k with
        builder := ((((s.reportAll k a.reports).signalBuilder k).seqSendAll k outs).aud k).builder
        writer := ((((s.reportAll k a.reports).signalBuilder k).seqSendAll k outs).aud k).writer } := by
      rw [State.seqSendAll_aud, State.signalBuilder_aud, State.reportAll_aud]
    generalize ((s.reportAll k a.reports).signalBuilder k).seqSendAll k outs = v
      at hstep hbuilder hwriter' hflight' hblocks
    have haud : (u.clockStep k a).aud k = { s.aud k with
        receiver := r, clock := a.clock, mixer := (s.aud k).mixer.markResync, seq := q
        builder := (v.aud k).builder, writer := (v.aud k).writer } := by
      rw [hstep, State.aud_modAud_same, hblocks]
    refine ⟨honly', ?_, ?_, ?_, ?_, ?_, ?_, by rw [hstep]; exact hflight', fun g => (nomatch hsig.symm.trans g),
      fun sig' g => ?_⟩
    any_goals rw [haud]
    · exact hwriter'
    · obtain rfl := Option.some.inj (hsig.symm.trans g)
      rw [← houts, ← hq]
      exact ⟨rfl, rfl, hbuilder⟩

/-! ## The clock's answer to a report (R17, R27 to R31) -/

/-- R17: what a clock that is not IDLE starts from. -/
def Clock.heard (c : Clock) : Clock := { c with silence := 0 }

section Answers
variable {c : Clock} {p : PositionReport}

theorem Clock.report_eq (c : Clock) (p : PositionReport) : c.report p
    = match c.state with
      | .idle => { clock := c, reports := [], signal := none }
      | .searching => c.heard.reportSearching p
      | .acquiring => c.heard.reportAcquiring p
      | .locked => c.heard.reportLocked p
      | .flywheel => c.heard.reportFlywheel p
      | .paused => c.heard.reportPaused p
      | .lost => c.heard.reportLost p := rfl

theorem Clock.report_idle (h : c.state = .idle) : c.report p = { clock := c, reports := [], signal := none } := by
  rw [Clock.report_eq, h]

theorem Clock.report_searching (h : c.state = .searching) : c.report p
    = if p.state = .stop then { clock := c.heard, reports := [], signal := none } else c.heard.seat p := by
  rw [Clock.report_eq, h]
  unfold Clock.reportSearching
  cases p.state <;> rfl

theorem Clock.report_lost (h : c.state = .lost) : c.report p
    = if p.state = .stop then c.heard.stopped false else c.heard.seat p := by
  rw [Clock.report_eq, h]
  unfold Clock.reportLost
  cases p.state <;> rfl

/-- R28 to R30: the threshold beyond which a PLAY or PAUSE seats. -/
def Clock.threshold (c : Clock) : Nat := if c.state = .acquiring then 240 else 2400

theorem Clock.report_running (h : c.state = .acquiring ∨ c.state = .locked ∨ c.state = .flywheel) : c.report p
    = match p.state with
      | .play =>
        if (c.heard.error p).natAbs ≤ c.threshold then
          match c.state with
          | .acquiring => c.heard.acquireStep (c.heard.error p)
          | .flywheel => c.heard.flywheelStep (c.heard.error p)
          | _ => c.heard.lockedStep (c.heard.error p)
        else c.heard.seat p
      | .pause =>
        if (c.heard.error p).natAbs ≤ c.threshold then c.heard.freeze (c.heard.predict p.arrival) p else c.heard.seat p
      | .stop => c.heard.stopped true := by
  unfold Clock.threshold
  obtain h | h | h := h
  · rw [Clock.report_eq, h]
    unfold Clock.reportAcquiring
    cases p.state <;> rfl
  · rw [Clock.report_eq, h]
    unfold Clock.reportLocked
    cases p.state <;> rfl
  · rw [Clock.report_eq, h]
    unfold Clock.reportFlywheel
    cases p.state <;> rfl

theorem Clock.report_paused (h : c.state = .paused) : c.report p
    = match p.state with
      | .play => if (c.heard.error p).natAbs ≤ 2400 then c.heard.resume p else c.heard.seat p
      | .pause =>
        if 240 < (c.heard.error p).natAbs then c.heard.seat p
        else { clock := c.heard, reports := [], signal := none }
      | .stop => c.heard.stopped true := by
  rw [Clock.report_eq, h]
  unfold Clock.reportPaused
  cases p.state <;> rfl

theorem Clock.report_stop (h : (c.state = .acquiring ∨ c.state = .locked ∨ c.state = .flywheel) ∨ c.state = .paused)
    (hp : p.state = .stop) : c.report p = c.heard.stopped true := by
  obtain h | h := h
  · rw [Clock.report_running h, hp]
  · rw [Clock.report_paused h, hp]

end Answers

/-! ## What the blocks make of a signal (R23, R26, R59, R64, R110) -/

/-- The Builder queues no START. -/
def Builder.StartFree (b : Builder) : Prop := ∀ e ∈ b.queue, e.kind ≠ .start

/-- A removal or a CLEAR. -/
def SeqOut.empties : SeqOut → Bool
  | .remove _ _ _ => true
  | .clear _ => true
  | .start _ _ _ _ => false
  | .textReady _ => false
  | .report _ => false
  | .readEntry _ _ => false
  | .readScan _ _ => false
  | .readLookback _ _ => false
  | .readText _ _ _ _ => false

theorem Builder.StartFree.join {b : Builder} (h : b.StartFree) {e : QueueEntry} (he : e.kind ≠ .start) :
    (b.join e).StartFree := by
  unfold Builder.join
  split
  · intro x hx
    obtain hx | hx := List.mem_append.mp hx
    · exact h x hx
    · rw [List.mem_singleton.mp hx]; exact he
  · exact h

theorem Builder.StartFree.filter {b : Builder} (h : b.StartFree) (f : QueueEntry → Bool) :
    { b with queue := b.queue.filter f }.StartFree := fun e he => h e (List.mem_filter.mp he).1

theorem Builder.StartFree.removal {b : Builder} (h : b.StartFree) (n : Nat) (c : Channel) (cue : CueId)
    (cause : Removal) : (b.removal n c cue cause).StartFree := by
  unfold Builder.removal
  split
  · exact h
  · have hfiltered := h.filter fun e => !e.isStartOf cue
    dsimp only
    split <;> split
    · exact hfiltered.join fun g => nomatch g
    · exact hfiltered
    · exact hfiltered.join fun g => nomatch g
    · exact hfiltered

theorem Builder.StartFree.heedAll {b : Builder} (h : b.StartFree) (n : Nat) {l : List SeqOut}
    (hl : ∀ o ∈ l, o.empties = true) : (b.heedAll n l).StartFree := by
  induction l generalizing b with
  | nil => exact h
  | cons o rest ih =>
    refine ih ?_ fun x hx => hl x (List.mem_cons_of_mem _ hx)
    have ho := hl o List.mem_cons_self
    cases o with
    | remove c cue cause => exact h.removal n c cue cause
    | clear c => exact (h.filter _).join fun g => nomatch g
    | start => exact nomatch ho
    | textReady => exact nomatch ho
    | report => exact nomatch ho
    | readEntry => exact nomatch ho
    | readScan => exact nomatch ho
    | readLookback => exact nomatch ho
    | readText => exact nomatch ho

theorem screenRequests_empties (mask : BitVec 4) (active : Vector (List ActiveCue) 4) :
    ∀ o ∈ screenRequests mask active, o.empties = true := by
  intro o ho
  obtain ⟨c, _, ho⟩ := List.mem_flatMap.mp ho
  obtain h | h := List.mem_append.mp ho
  · obtain ⟨a, _, rfl⟩ := List.mem_map.mp h
    rfl
  · split at h
    · rw [List.mem_singleton.mp h]; rfl
    · exact nomatch h

theorem Sequencer.seat_sends (q : Sequencer) (env : SeqEnv) (target : Word) :
    (q.seat env target).2 = if q.state = .walking then screenRequests env.mask q.active else [] := by
  unfold Sequencer.seat
  cases q.state with
  | walking => rfl
  | idle =>
    dsimp only
    split <;> rfl
  | seeking => rfl
  | faulted => rfl

theorem Sequencer.obey_empties (q : Sequencer) (env : SeqEnv) (sig : Signal) :
    ∀ o ∈ (q.obey env sig).2, o.empties = true := by
  have hchosen (p : Prop) [Decidable p] : ∀ o ∈ (if p then screenRequests env.mask q.active else []),
      o.empties = true := by
    split
    · exact screenRequests_empties _ _
    · exact fun _ h => nomatch h
  cases sig with
  | seat target =>
    change ∀ o ∈ (q.seat env target).2, _
    rw [Sequencer.seat_sends]
    exact hchosen _
  | clear =>
    change ∀ o ∈ (q.clearOrder env).2, _
    rw [Sequencer.clearOrder_sends]
    exact hchosen _

theorem State.signalled_startFree {s : State} {k : Aud} (hrunning : s.partState = .running)
    (hlit : (s.aud k).unit.showState ≠ .dark) {l : List SeqOut} (hl : ∀ o ∈ l, o.empties = true) :
    (((s.signalBuilder k).seqSendAll k l).aud k).builder.StartFree := by
  have hsignal : (((s.signalBuilder k).aud k).builder).StartFree := by
    have hhears : s.builderHears k = true := by
      simp [State.builderHears, hrunning, hlit]
    unfold State.signalBuilder
    rw [if_pos hhears, State.modBuilder_def, State.aud_modAud_same]
    intro e he
    have hkind := beq_iff_eq.mp (List.mem_filter.mp he).2
    rw [hkind]
    exact fun g => nomatch g
  rw [State.seqSendAll_builder]
  split
  · exact hsignal.heedAll _ hl
  · exact hsignal

theorem Sequencer.obey_cursor (q : Sequencer) (env : SeqEnv) (sig : Signal) : (q.obey env sig).1.cursor = q.cursor := by
  cases sig with
  | seat target =>
    change (q.seat env target).1.cursor = _
    unfold Sequencer.seat
    cases q.state with
    | walking => rfl
    | idle =>
      dsimp only
      split <;> rfl
    | seeking => rfl
    | faulted => rfl
  | clear =>
    change (q.clearOrder env).1.cursor = _
    unfold Sequencer.clearOrder
    split <;> rfl

theorem Sequencer.seat_seeks {q : Sequencer} {env : SeqEnv} (target : Word)
    (h : q.state = .walking ∨ q.state = .seeking ∨ (q.state = .idle ∧ env.cuesBound = true)) :
    (q.seat env target).1 = q.beginSeek target := by
  unfold Sequencer.seat
  obtain h | h | ⟨h, hbound⟩ := h <;> rw [h]
  exact congrArg Prod.fst (if_pos hbound)

theorem Sequencer.seat_stays {q : Sequencer} {env : SeqEnv} (target : Word)
    (h : q.state = .faulted ∨ (q.state = .idle ∧ env.cuesBound = false)) : (q.seat env target).1 = q := by
  unfold Sequencer.seat
  obtain h | ⟨h, hbound⟩ := h <;> rw [h]
  exact congrArg Prod.fst (if_neg (by rw [hbound]; exact Bool.false_ne_true))

/-! ## Steered and frozen clocks (R19, R24, R28, R29) -/

section Steered
variable (c : Clock) (e : Int)

theorem Clock.steer_showTime : (c.steer e).1.showTime = c.showTime := by rw [Clock.steer_eq]

theorem Clock.lockedStep_eq :
    c.lockedStep e = { clock := (c.steer e).1, reports := (c.steer e).2, signal := none } := rfl

theorem Clock.flywheelStep_eq : c.flywheelStep e
    = { clock := { (c.steer e).1 with state := .locked }
        reports := (c.steer e).2 ++ [.clockLocked c.showTime (c.steer e).1.eps], signal := none } := by
  rw [← Clock.steer_showTime c e]
  rfl

theorem Clock.acquireStep_few (h : c.acquire < 2) : c.acquireStep e
    = { clock := { (c.steer e).1 with acquire := c.acquire + 1 }, reports := (c.steer e).2, signal := none } := by
  have hacquire := Clock.steer_acquire c e
  unfold Clock.acquireStep
  generalize c.steer e = x at hacquire ⊢
  rw [← hacquire] at h ⊢
  exact if_neg (by omega)

theorem Clock.acquireStep_many (h : 2 ≤ c.acquire) : c.acquireStep e
    = { clock := { (c.steer e).1 with acquire := c.acquire + 1, state := .locked }
        reports := (c.steer e).2 ++ [.clockLocked c.showTime (c.steer e).1.eps], signal := none } := by
  have hacquire := Clock.steer_acquire c e
  have hshown := Clock.steer_showTime c e
  unfold Clock.acquireStep
  generalize c.steer e = x at hacquire hshown ⊢
  rw [← hshown]
  rw [← hacquire] at h ⊢
  exact if_pos (by omega)

end Steered

/-- R24: a clock freezes at its prediction, neither back nor past the greatest show time. -/
theorem frozen_showTime (x : Word) (predicted : Int) :
    (if predicted < x.toNat then x else clampShowTime predicted.toNat)
      = BitVec.ofInt 32 (max x.toNat (min predicted 4294967295)) := by
  have hx := x.isLt
  refine BitVec.eq_of_toNat_eq ?_
  rw [BitVec.toNat_ofInt]
  split
  · omega
  · rw [clampShowTime_toNat]
    omega

/-- Settles O11: the message is accepted, and the clock's answer to the report is taken apart by the state it is in. -/
theorem validMessageMovesTheClock : Obligations.ValidMessageMovesTheClock := by
  unfold Obligations.ValidMessageMovesTheClock
  intro k code hours minutes seconds frame rate doing spare sequence check t0 first s hrate hhours hminutes hseconds
    hframe hdoing hrunning hassembling hlatest htimely hfirst hfresh ⟨hbuffer, hsum⟩ htrimLow htrimHigh c heard position
    shown running predicted error near steered offSpeed
  obtain ⟨hrate60, hunits⟩ := editRate_bounds hrate
  obtain ⟨st, hst⟩ : ∃ st, serverState doing = some st := by
    simp only [List.mem_cons, List.not_mem_nil, or_false] at hdoing
    obtain rfl | rfl | rfl := hdoing
    · exact ⟨.play, rfl⟩
    · exact ⟨.pause, rfl⟩
    · exact ⟨.stop, rfl⟩
  generalize hticks : (((hours * 60 + minutes) * 60 + seconds) * rate + frame) * (48000 / rate) = ticks
  have hvalid : validate (0xA5#8 :: [doing, BitVec.ofNat 8 code, BitVec.ofNat 8 (16 * (hours / 10) + hours % 10),
        BitVec.ofNat 8 (16 * (minutes / 10) + minutes % 10), BitVec.ofNat 8 (16 * (seconds / 10) + seconds % 10),
        BitVec.ofNat 8 (16 * (frame / 10) + frame % 10), spare, sequence] ++ [check]) (s.aud k).receiver.lastSequence
      = some (st, ticks) := by
    rw [validate_eq_some_iff]
    refine ⟨⟨(checkBalances_iff _).mpr hsum, hfresh⟩, hst, (messagePosition_eq_some_iff _ _).mpr ?_⟩
    exact ⟨rate, hours, minutes, seconds, frame, editRate_coded hrate, bcd_encoded (by omega), bcd_encoded (by omega),
      bcd_encoded (by omega), bcd_encoded (by omega), ⟨hhours, hminutes, hseconds, hframe⟩, hticks⟩
  have htake := Receiver.take_accepts hassembling hlatest htimely hfirst hbuffer rfl hvalid (s.aud k).clock.loop.trim
  have hticksLt : ticks < 86400 * 48000 := hticks ▸ position_lt hunits hhours hminutes hseconds hframe
  have hposition : position = max 0 ((ticks : Int) + c.loop.trim) := by
    rw [← hticks]
    simp only [position, Nat.cast_mul, Nat.cast_add]
    rfl
  generalize hp : (⟨st, trimmed ticks (s.aud k).clock.loop.trim, first⟩ : PositionReport) = p at htake
  have hstate : p.state = st := by rw [← hp]
  have hshown : p.showTime = shown := by
    rw [← hp]
    exact (trimmed_eq _ _).trans (congrArg (BitVec.ofInt 32) hposition.symm)
  have hshownInt : (p.showTime.toNat : Int) = position := by
    have hlow : -4800 ≤ c.loop.trim := htrimLow
    have hhigh : c.loop.trim ≤ 4800 := htrimHigh
    rw [← hp, hposition]
    change (((BitVec.ofNat 32 ((ticks : Int) + c.loop.trim).toNat).toNat : Nat) : Int) = _
    rw [BitVec.toNat_ofNat]
    omega
  have harrival : p.arrival = first := by rw [← hp]
  have hpredict : c.heard.predict p.arrival = predicted := by
    rw [harrival]
    change (if c.state = .paused then (c.showTime.toNat : Int) else _) = (c.showTime.toNat : Int) + _
    by_cases hpaused : c.state = .paused
    · rw [if_pos hpaused, if_pos hpaused, Int.add_zero]
    · rw [if_neg hpaused, if_neg hpaused, ← Int.add_assoc]
      rfl
  have herror : c.heard.error p = error := by
    unfold Clock.error
    rw [hpredict, hshownInt]
  have hheard := State.takeByte_hears htake
  have hplay : doing = 1#8 → p.state = .play := fun g => by rw [hstate]; subst g; exact (Option.some.inj hst).symm
  have hpause : doing = 2#8 → p.state = .pause := fun g => by rw [hstate]; subst g; exact (Option.some.inj hst).symm
  have hstop : doing = 3#8 → p.state = .stop := fun g => by rw [hstate]; subst g; exact (Option.some.inj hst).symm
  generalize htaken : s.takeByte k check = t at hheard
  refine ⟨t, (execTimecodeByteArrival_running hrunning k check).trans (congrArg Host.Outcome.next htaken), hheard.only,
    hheard.receiver, hheard.link, hheard.unit, hheard.epochs, ?_⟩
  intro clock reported quiet signalled cleared told seated
  have hquiet {x : Clock} {l : List Report} (h : c.report p = { clock := x, reports := l, signal := none }) :
      clock = x ∧ quiet ∧ reported l := by
    have hwriter := hheard.writer
    have hflight := hheard.inFlight
    rw [h] at hwriter hflight
    exact ⟨hheard.clock.trans (congrArg ClockAnswer.clock h), hheard.quiet (congrArg ClockAnswer.signal h), hwriter,
      hflight⟩
  have hsignal {x : Clock} {l : List Report} {sig : Signal}
      (h : c.report p = { clock := x, reports := l, signal := some sig }) :
      clock = x ∧ reported l ∧ signalled ∧ (t.aud k).seq = ((s.aud k).seq.obey (s.seqEnv k) sig).1
        ∧ (t.aud k).builder
          = (((s.signalBuilder k).seqSendAll k ((s.aud k).seq.obey (s.seqEnv k) sig).2).aud k).builder := by
    have hwriter := hheard.writer
    have hflight := hheard.inFlight
    obtain ⟨hseq, hmixer, hbuilder⟩ := hheard.signals sig (congrArg ClockAnswer.signal h)
    rw [h] at hwriter hflight
    refine ⟨hheard.clock.trans (congrArg ClockAnswer.clock h), ⟨hwriter, hflight⟩, ⟨fun name => ?_, fun hlit => ?_, ?_⟩,
      hseq, hbuilder⟩
    · rw [hmixer]
      cases name <;> rfl
    · rw [hbuilder]
      exact State.signalled_startFree hrunning hlit (Sequencer.obey_empties _ _ _)
    · rw [hseq]
      exact Sequencer.obey_cursor _ _ _
  have hcleared : screenRequests (s.seqEnv k).mask (s.aud k).seq.active = cleared := rfl
  have hseated {paused : Bool} (h : c.report p = c.heard.seat p)
      (hpaused : p.state = if paused then .pause else .play) : seated paused := by
    obtain ⟨hclock, hreported, hsignalled, hseq, hbuilder⟩ := hsignal (h.trans rfl)
    refine ⟨hclock.trans ?_, hshown ▸ hreported, hsignalled, ?_, fun hfollows => ?_, fun hrests => ?_⟩
    · rw [← hshown, ← harrival]
      rw [hpaused]
      cases paused <;> rfl
    · refine hbuilder.trans (congrArg (fun l => (((s.signalBuilder k).seqSendAll k l).aud k).builder) ?_)
      refine (Sequencer.seat_sends _ _ _).trans ?_
      simp only [decide_eq_true_eq]
      rfl
    · have hseek : (t.aud k).seq = (s.aud k).seq.beginSeek p.showTime := hseq.trans (Sequencer.seat_seeks _ hfollows)
      rw [hseek, hshown]
      exact ⟨rfl, rfl, noActive_channel, rfl⟩
    · exact hseq.trans (Sequencer.seat_stays _ hrests)
  have hstopped (h : c.report p = c.heard.stopped true) :
      clock = { heard with slew := 0, state := .searching } ∧ reported [.clockStopped] ∧ signalled
        ∧ told (Decidable.decide ((s.aud k).seq.state = .walking ∨ (s.aud k).seq.state = .seeking))
        ∧ ((s.aud k).seq.state = .walking ∨ (s.aud k).seq.state = .seeking →
            (t.aud k).seq.state = .idle ∧ (t.aud k).seq.window = [] ∧ (t.aud k).seq.seek = none
              ∧ ∀ ch : Channel, (t.aud k).seq.active[ch] = []) := by
    obtain ⟨hclock, hreported, hsignalled, hseq, hbuilder⟩ := hsignal (h.trans rfl)
    refine ⟨hclock, hreported, hsignalled, ?_, fun hfollows => ?_⟩
    · refine hbuilder.trans (congrArg (fun l => (((s.signalBuilder k).seqSendAll k l).aud k).builder) ?_)
      refine (Sequencer.clearOrder_sends _ _).trans ?_
      simp only [decide_eq_true_eq, ← SeqState.isFollowing_iff]
      rfl
    · have hclear := hseq.trans (congrArg Prod.fst
        (Sequencer.clearOrder_follows ((SeqState.isFollowing_iff _).mpr hfollows) (s.seqEnv k)))
      rw [hclear]
      exact ⟨rfl, rfl, rfl, noActive_channel⟩
  have hthreshold : near ↔ (c.heard.error p).natAbs ≤ c.threshold := by rw [herror]; rfl
  have hmoves {st : ServerState} (h : p.state = st) (hst : st ≠ .stop) : ¬p.state = .stop :=
    fun g => hst (h.symm.trans g)
  have hunseated (h : c.state = .searching ∨ c.state = .lost) (hp : ¬p.state = .stop) :
      c.report p = c.heard.seat p := by
    obtain h | h := h
    · exact (Clock.report_searching h).trans (if_neg hp)
    · exact (Clock.report_lost h).trans (if_neg hp)
  have hfreeze : (c.heard.freeze (c.heard.predict p.arrival) p).clock = { heard with
      showTime := BitVec.ofInt 32 (max c.showTime.toNat (min predicted 4294967295))
      anchor := first, slew := 0, state := .paused } := by
    rw [hpredict, ← harrival, ← frozen_showTime]
    rfl
  have hpausedNear (h : c.state = .paused) : near ↔ (c.heard.error p).natAbs ≤ 2400 := by
    rw [hthreshold, Clock.threshold, h]
    rfl
  refine ⟨fun h => hquiet (Clock.report_idle h), fun h => ⟨fun g => ?_, fun g => ?_⟩, fun h g => ?_, fun h g => ?_,
    fun h hfar => ⟨fun g => ?_, fun g => ?_⟩, fun h hnear g => ?_, fun h g => hstopped (Clock.report_stop h (hstop g)),
    fun h hnear g hfew => ?_, fun h hnear g hmany => ?_, fun h hnear g => ?_, fun h hnear g => ?_, fun h hnear g => ?_,
    fun h hfar g => ?_, fun h hfar g => ?_, fun h hclose g => ?_⟩
  · exact hseated (paused := false) (hunseated h (hmoves (hplay g) (by decide))) (hplay g)
  · exact hseated (paused := true) (hunseated h (hmoves (hpause g) (by decide))) (hpause g)
  · exact hquiet ((Clock.report_searching h).trans (if_pos (hstop g)))
  · exact hquiet ((Clock.report_lost h).trans (if_pos (hstop g)))
  · refine hseated (paused := false) ((Clock.report_running h).trans ?_) (hplay g)
    rw [hplay g]
    exact if_neg (mt hthreshold.mpr hfar)
  · refine hseated (paused := true) ((Clock.report_running h).trans ?_) (hpause g)
    rw [hpause g]
    exact if_neg (mt hthreshold.mpr hfar)
  · have hreport : c.report p = c.heard.freeze (c.heard.predict p.arrival) p := by
      rw [Clock.report_running h, hpause g]
      exact if_pos (hthreshold.mp hnear)
    obtain ⟨hclock, hstays, hreported⟩ := hquiet (hreport.trans rfl)
    exact ⟨hstays, hreported, hclock.trans hfreeze⟩
  · have hreport : c.report p = c.heard.acquireStep error := by
      rw [Clock.report_running (.inl h), hplay g, h, ← herror]
      exact if_pos (hthreshold.mp hnear)
    obtain ⟨hclock, hstays, hreported⟩ := hquiet (hreport.trans (c.heard.acquireStep_few error hfew))
    exact ⟨hstays, hclock, hreported⟩
  · have hreport : c.report p = c.heard.acquireStep error := by
      rw [Clock.report_running (.inl h), hplay g, h, ← herror]
      exact if_pos (hthreshold.mp hnear)
    obtain ⟨hclock, hstays, hreported⟩ := hquiet (hreport.trans (c.heard.acquireStep_many error hmany))
    exact ⟨hstays, hclock, hreported⟩
  · have hreport : c.report p = c.heard.lockedStep error := by
      rw [Clock.report_running (.inr (.inl h)), hplay g, h, ← herror]
      exact if_pos (hthreshold.mp hnear)
    obtain ⟨hclock, hstays, hreported⟩ := hquiet (hreport.trans (c.heard.lockedStep_eq error))
    exact ⟨hstays, hclock, hreported⟩
  · have hreport : c.report p = c.heard.flywheelStep error := by
      rw [Clock.report_running (.inr (.inr h)), hplay g, h, ← herror]
      exact if_pos (hthreshold.mp hnear)
    obtain ⟨hclock, hstays, hreported⟩ := hquiet (hreport.trans (c.heard.flywheelStep_eq error))
    exact ⟨hstays, hclock, hreported⟩
  · have hreport : c.report p = c.heard.resume p := by
      rw [Clock.report_paused h, hplay g]
      exact if_pos ((hpausedNear h).mp hnear)
    obtain ⟨hclock, hstays, hreported⟩ := hquiet (hreport.trans rfl)
    refine ⟨hstays, hreported, hclock.trans ?_⟩
    rw [← hshown, ← harrival]
    rfl
  · refine hseated (paused := false) ((Clock.report_paused h).trans ?_) (hplay g)
    rw [hplay g]
    exact if_neg (mt (hpausedNear h).mpr hfar)
  · refine hseated (paused := true) ((Clock.report_paused h).trans ?_) (hpause g)
    rw [hpause g]
    exact if_pos (by rw [herror]; exact hfar)
  · refine hquiet ((Clock.report_paused h).trans ?_)
    rw [hpause g]
    exact if_neg (by rw [herror]; exact Nat.not_lt.mpr hclose)

end Sys2Proof.Machine
end

section
/-! SUPPORT. A ring's frame, and the mix (R77, R82 to R85, R88, R89). -/

namespace Sys2Proof.Machine

/-! ## One source sample (R83 to R85) -/

/-- A ring as the statements read it, with what it gave so far. -/
def Ring.heard (r : Ring) (samples : List Sample) (reports : List Report) (short : Bool) : Heard :=
  { blocks := r.blocks, take := r.take, condition := r.condition
    samples := samples, reports := reports, short := short }

/-- The blocks passed over at a position leave, each counted. -/
theorem Ring.readAt_passes (name : RingName) (x : Word) (l : List RingBlock) (r : Ring) :
    Ring.readAt name x l r = Ring.readAt name x (l.dropWhile (RingBlock.isPassed x))
      { r with take := r.take + BitVec.ofNat 32 (l.length - (l.dropWhile (RingBlock.isPassed x)).length) } := by
  induction l generalizing r with
  | nil => simp
  | cons b rest ih =>
    by_cases hb : b.isPassed x = true
    · have hle := (List.dropWhile_sublist (l := rest) (RingBlock.isPassed x)).length_le
      have hcount : (b :: rest).length - (rest.dropWhile (RingBlock.isPassed x)).length
          = 1 + (rest.length - (rest.dropWhile (RingBlock.isPassed x)).length) := by
        rw [List.length_cons]
        omega
      have hpass : Ring.readAt name x (b :: rest) r = Ring.readAt name x rest { r with take := r.take + 1 } := by
        rw [Ring.readAt]
        unfold RingBlock.isPassed at hb
        cases hst : b.state with
        | failed => rfl
        | reading => rw [hst] at hb; exact nomatch hb
        | held blk =>
          rw [hst] at hb
          exact if_pos (of_decide_eq_true hb)
      rw [List.dropWhile_cons_of_pos hb, hpass, ih, hcount, BitVec.ofNat_add, ← BitVec.add_assoc]
      rfl
    · rw [List.dropWhile_cons_of_neg hb]
      simp

theorem Ring.filler_heard (r : Ring) (name : RingName) (samples : List Sample) (reports : List Report) (short : Bool) :
    (r.filler name).ring.heard (samples ++ (r.filler name).samples) (reports ++ (r.filler name).reports)
        (short || (r.filler name).short)
      = { blocks := r.blocks, take := r.take
          condition := if r.condition = .playing then .starved else r.condition
          samples := samples ++ [{ value := 0, active := false }]
          reports := reports ++ (if r.condition = .playing then [.narrationUnderrun name r.take] else [])
          short := short || Decidable.decide (r.condition ≠ .resting) } := by
  unfold Ring.filler
  cases h : r.condition <;> simp [Ring.heard, h, quiet]

theorem dropWhile_head_not {p : RingBlock → Bool} {l rest : List RingBlock} {b : RingBlock}
    (h : l.dropWhile p = b :: rest) : p b = false := by
  have := List.head?_dropWhile_not p l
  rw [h] at this
  exact this

/-- One source sample of a ring is that of the statements. -/
theorem Heard.next_heard (name : RingName) (x : Word) (r : Ring) (samples : List Sample) (reports : List Report)
    (short : Bool) : Heard.next name (r.heard samples reports short) x
      = (Ring.readAt name x r.blocks r).ring.heard (samples ++ (Ring.readAt name x r.blocks r).samples)
          (reports ++ (Ring.readAt name x r.blocks r).reports) (short || (Ring.readAt name x r.blocks r).short) := by
  rw [Ring.readAt_passes]
  unfold Heard.next
  simp only [Ring.heard]
  generalize r.take + BitVec.ofNat 32 (r.blocks.length - (r.blocks.dropWhile (RingBlock.isPassed x)).length) = take
  cases hleft : r.blocks.dropWhile (RingBlock.isPassed x) with
  | nil =>
    exact (Ring.filler_heard { r with blocks := [], take := take } name samples reports short).symm
  | cons b rest =>
    have hnot := dropWhile_head_not hleft
    unfold RingBlock.isPassed at hnot
    rw [List.map_cons, Ring.readAt]
    cases hst : b.state with
    | failed => rw [hst] at hnot; exact nomatch hnot
    | reading =>
      exact (Ring.filler_heard { r with blocks := b :: rest, take := take } name samples reports short).symm
    | held blk =>
      rw [hst] at hnot
      have hstop : ¬blk.stop ≤ x.toNat := of_decide_eq_false hnot
      dsimp only
      rw [if_neg hstop]
      by_cases hgap : x.toNat + 2 ≤ blk.start.toNat
      · rw [if_pos hgap, if_pos hgap]
        simp [quiet]
      · rw [if_neg hgap, if_neg hgap]
        unfold Ring.playSample conditionAfter
        by_cases hended : (x.toNat - blk.start.toNat) / 2 + 1 = blk.samples.length
        · have hle := (List.dropWhile_sublist (l := rest) fun y => Decidable.decide (y.state = .failed)).length_le
          have hcount : (b :: rest).length - (rest.dropWhile fun y => Decidable.decide (y.state = .failed)).length
              = 1 + (rest.length - (rest.dropWhile fun y => Decidable.decide (y.state = .failed)).length) := by
            rw [List.length_cons]
            omega
          simp only [hended, if_true, List.drop_one, List.tail_cons, hcount, Ring.settle, dropFailed_eq,
            BitVec.ofNat_add, ← BitVec.add_assoc, decide_true, Bool.true_and, true_and, Bool.or_false]
          rfl
        · simp only [hended, if_false, decide_false, Bool.false_and, false_and, Bool.or_false, Bool.false_eq_true]
          rfl

/-! ## A run of source samples (R83) -/

/-- The source positions of a run. -/
def positions (n : Nat) (x : Word) : List Word := (List.range n).map fun i => x + BitVec.ofNat 32 (2 * i)

theorem positions_succ (n : Nat) (x : Word) : positions (n + 1) x = x :: positions n (x + 2) := by
  unfold positions
  rw [List.range_succ_eq_map, List.map_cons, List.map_map]
  refine congrArg₂ List.cons (by simp) (List.map_congr_left fun i _ => ?_)
  simp only [Function.comp_apply, Nat.succ_eq_add_one]
  rw [show 2 * (i + 1) = 2 + 2 * i by omega, BitVec.ofNat_add, ← BitVec.add_assoc]
  rfl

/-- A run of source samples is that of the statements. -/
theorem Ring.readRun_heard (name : RingName) (n : Nat) : ∀ (x : Word) (r : Ring) (samples : List Sample)
    (reports : List Report) (short : Bool),
    (positions n x).foldl (Heard.next name) (r.heard samples reports short)
      = (Ring.readRun name n x r).ring.heard (samples ++ (Ring.readRun name n x r).samples)
          (reports ++ (Ring.readRun name n x r).reports) (short || (Ring.readRun name n x r).short) := by
  induction n with
  | zero =>
    intro x r samples reports short
    simp [positions, Ring.readRun]
  | succ n ih =>
    intro x r samples reports short
    rw [positions_succ, List.foldl_cons, Heard.next_heard, ih]
    simp only [Ring.readRun, List.append_assoc, Bool.or_assoc]

/-- Failed blocks at the head are passed over by the first source sample all the same. -/
theorem Heard.next_settled (name : RingName) (h : Heard) (x : Word) :
    Heard.next name { h with blocks := (dropFailed h.blocks h.take).1, take := (dropFailed h.blocks h.take).2 } x
      = Heard.next name h x := by
  have hleft : (h.blocks.dropWhile fun y => Decidable.decide (y.state = .failed)).dropWhile (RingBlock.isPassed x)
      = h.blocks.dropWhile (RingBlock.isPassed x) := by
    induction h.blocks with
    | nil => rfl
    | cons b rest ih =>
      by_cases hb : b.state = .failed
      · rw [List.dropWhile_cons_of_pos (by simpa using hb),
          List.dropWhile_cons_of_pos (p := RingBlock.isPassed x) (by simp [RingBlock.isPassed, hb]), ih]
      · rw [List.dropWhile_cons_of_neg (by simpa using hb)]
  have hle := (List.dropWhile_sublist (l := h.blocks) fun y => Decidable.decide (y.state = .failed)).length_le
  have hle' := (List.dropWhile_sublist (l := h.blocks.dropWhile fun y => Decidable.decide (y.state = .failed))
    (RingBlock.isPassed x)).length_le
  rw [hleft] at hle'
  unfold Heard.next
  simp only [dropFailed_eq, hleft]
  have htake : h.take + BitVec.ofNat 32
        (h.blocks.length - (h.blocks.dropWhile fun y => Decidable.decide (y.state = .failed)).length)
      + BitVec.ofNat 32 ((h.blocks.dropWhile fun y => Decidable.decide (y.state = .failed)).length
        - (h.blocks.dropWhile (RingBlock.isPassed x)).length)
      = h.take + BitVec.ofNat 32 (h.blocks.length - (h.blocks.dropWhile (RingBlock.isPassed x)).length) := by
    rw [BitVec.add_assoc, ← BitVec.ofNat_add]
    exact congrArg (fun n => h.take + BitVec.ofNat 32 n) (by omega)
  rw [htake]

/-! ## What a run leaves (R77, R84) -/

/-- A ring loses blocks, each counted, and changes its condition. -/
structure Ring.Sheds (r r' : Ring) : Prop where
  blocks : r'.blocks.Sublist r.blocks
  take : r'.take = r.take + BitVec.ofNat 32 (r.blocks.length - r'.blocks.length)
  rest : r' = { r with blocks := r'.blocks, take := r'.take, condition := r'.condition }

theorem Ring.Sheds.refl (r : Ring) : r.Sheds r := ⟨.refl _, by simp, rfl⟩

theorem Ring.Sheds.trans {r r' r'' : Ring} (h : r.Sheds r') (g : r'.Sheds r'') : r.Sheds r'' where
  blocks := g.blocks.trans h.blocks
  take := by
    have hle := h.blocks.length_le
    have hle' := g.blocks.length_le
    rw [g.take, h.take, BitVec.add_assoc, ← BitVec.ofNat_add]
    exact congrArg (fun n => r.take + BitVec.ofNat 32 n) (by omega)
  rest := by
    rw [g.rest, h.rest]

theorem Ring.sheds_filler (r : Ring) (name : RingName) : r.Sheds (r.filler name).ring := by
  unfold Ring.filler
  split
  · exact .refl r
  · exact ⟨.refl _, by simp, rfl⟩
  · exact .refl r

theorem Ring.sheds_settle (r : Ring) : r.Sheds r.settle := by
  unfold Ring.settle
  rw [dropFailed_eq]
  exact ⟨List.dropWhile_sublist _, rfl, rfl⟩

theorem Ring.sheds_head {r : Ring} {b : RingBlock} {rest : List RingBlock} (h : r.blocks = b :: rest)
    (c : RingCondition) : r.Sheds { r with blocks := rest, take := r.take + 1, condition := c } :=
  ⟨by rw [h]; exact List.sublist_cons_self b rest, by simp [h], rfl⟩

/-- A source sample is read from the blocks given, not from those the ring names. -/
theorem Ring.readAt_withBlocks (name : RingName) (x : Word) (l blocks : List RingBlock) (r : Ring) :
    Ring.readAt name x l { r with blocks := blocks } = Ring.readAt name x l r := by
  induction l generalizing r with
  | nil => rfl
  | cons b rest ih =>
    rw [Ring.readAt, Ring.readAt]
    cases b.state with
    | reading => rfl
    | failed => exact ih { r with take := r.take + 1 }
    | held blk => rw [show Ring.readAt name x rest _ = _ from ih { r with take := r.take + 1 }]; rfl

theorem Ring.sheds_readAt (name : RingName) (x : Word) (l : List RingBlock) :
    ∀ r : Ring, r.blocks = l → r.Sheds (Ring.readAt name x l r).ring := by
  induction l with
  | nil =>
    intro r h
    rw [Ring.readAt, ← h]
    exact r.sheds_filler name
  | cons b rest ih =>
    intro r h
    have hsame : { r with blocks := b :: rest } = r := by rw [← h]
    have hpass : r.Sheds (Ring.readAt name x rest { r with take := r.take + 1 }).ring := by
      rw [← Ring.readAt_withBlocks name x rest rest]
      exact (Ring.sheds_head h r.condition).trans (ih _ rfl)
    rw [Ring.readAt]
    cases b.state with
    | reading =>
      dsimp only
      rw [hsame]
      exact r.sheds_filler name
    | failed => exact hpass
    | held blk =>
      dsimp only
      split
      · exact hpass
      · split
        · rw [hsame]
          exact .refl r
        · unfold Ring.playSample
          dsimp only
          split
          · exact (Ring.sheds_head h _).trans (Ring.sheds_settle _)
          · exact ⟨by rw [h], by simp [h], rfl⟩

theorem Ring.sheds_readRun (name : RingName) (n : Nat) :
    ∀ (x : Word) (r : Ring), r.Sheds (Ring.readRun name n x r).ring := by
  induction n with
  | zero => exact fun _ r => .refl r
  | succ n ih => exact fun x r => (Ring.sheds_readAt name x r.blocks r rfl).trans (ih _ _)

theorem Ring.readAt_samples_length (name : RingName) (x : Word) (l : List RingBlock) (r : Ring) :
    (Ring.readAt name x l r).samples.length = 1 := by
  have hfiller (r : Ring) : (r.filler name).samples.length = 1 := by
    unfold Ring.filler
    split <;> rfl
  induction l generalizing r with
  | nil => exact hfiller _
  | cons b rest ih =>
    rw [Ring.readAt]
    cases b.state with
    | reading => exact hfiller _
    | failed => exact ih _
    | held blk =>
      dsimp only
      split
      · exact ih _
      · split <;> rfl

theorem Ring.readRun_samples_length (name : RingName) (n : Nat) : ∀ (x : Word) (r : Ring),
    (Ring.readRun name n x r).samples.length = n := by
  induction n with
  | zero => exact fun _ _ => rfl
  | succ n ih =>
    intro x r
    rw [Ring.readRun, List.length_append, Ring.readAt_samples_length, ih, Nat.add_comm]

/-- A ring without blocks gives silence (R84). -/
theorem Ring.readRun_empty (name : RingName) (n : Nat) : ∀ (x : Word) (r : Ring), r.blocks = [] →
    ∀ y ∈ (Ring.readRun name n x r).samples, y = quiet := by
  induction n with
  | zero => exact fun _ _ _ _ h => nomatch h
  | succ n ih =>
    intro x r h y hy
    rw [Ring.readRun] at hy
    have hfirst : (Ring.readAt name x r.blocks r).ring.blocks = []
        ∧ (Ring.readAt name x r.blocks r).samples = [quiet] := by
      rw [h, Ring.readAt]
      unfold Ring.filler
      split <;> exact ⟨rfl, rfl⟩
    obtain hy | hy := List.mem_append.mp hy
    · rw [hfirst.2] at hy
      exact List.mem_singleton.mp hy
    · exact ih _ _ hfirst.1 y hy

/-! ## The alignment (R82) -/

theorem Alignment.outputs_length (al : Alignment) {l : List Sample} (h : l.length = al.sources) :
    (al.outputs l).length = 240 := by
  cases al <;> simp_all [Alignment.outputs, Alignment.sources]

theorem Alignment.mem_outputs (al : Alignment) {l : List Sample} {y : Sample} (h : y ∈ al.outputs l) :
    y ∈ l ∨ y = quiet := by
  cases al with
  | resync => exact .inl h
  | normal => exact .inl h
  | drop =>
    obtain h | h := List.mem_append.mp h
    · exact .inl (List.mem_of_mem_take h)
    · exact .inl (List.mem_of_mem_drop h)
  | again =>
    obtain h | h := List.mem_append.mp h
    · exact .inl (List.mem_of_mem_take h)
    · obtain rfl | h := List.mem_cons.mp h
      · by_cases hl : 119 < l.length
        · rw [List.getD_eq_getElem _ _ hl]
          exact .inl (List.getElem_mem hl)
        · rw [List.getD_eq_default _ _ (Nat.le_of_not_lt hl)]
          exact .inr rfl
      · exact .inl (List.mem_of_mem_drop h)

/-- The sources a frame reads, whether it begins again at the show time `again`, `d` its distance (R82). -/
def alignmentOf (again : Bool) (d : Int) : Alignment :=
  if again then .resync else if 2 ≤ d then .drop else if d ≤ -2 then .again else .normal

theorem Ring.alignment_eq (r : Ring) (e : Word) : r.alignment e
    = alignmentOf (r.resync || Decidable.decide (480 < (e - r.position).toInt.natAbs)) (e - r.position).toInt := by
  unfold Ring.alignment alignmentOf
  simp only [Bool.or_eq_true, decide_eq_true_eq, gt_iff_lt, ge_iff_le]

theorem alignmentOf_sources (again : Bool) (d : Int) : (alignmentOf again d).sources
    = if again then 240 else if 2 ≤ d then 241 else if d ≤ -2 then 239 else 240 := by
  unfold alignmentOf
  cases again with
  | true => rfl
  | false =>
    simp only [Bool.false_eq_true, if_false]
    split
    · rfl
    · split <;> rfl

/-- R82: the output samples by the number of source samples. -/
theorem Alignment.outputs_eq (al : Alignment) {l : List Sample} (h : l.length = al.sources) : al.outputs l
    = if al.sources = 241 then l.eraseIdx 120
      else if al.sources = 239 then l.take 120 ++ (l.drop 119).take 1 ++ l.drop 120
      else l := by
  cases al with
  | resync => rfl
  | normal => rfl
  | drop => exact (List.eraseIdx_eq_take_drop_succ l 120).symm
  | again =>
    have hlt : 119 < l.length := by rw [h]; decide
    have hone : (l.drop 119).take 1 = [l.getD 119 quiet] := by
      rw [List.drop_eq_getElem_cons hlt, List.getD_eq_getElem _ _ hlt]
      rfl
    change _ = l.take 120 ++ (l.drop 119).take 1 ++ l.drop 120
    rw [hone, List.append_assoc]
    rfl

/-- R82: a resync takes the stale blocks, and those that failed behind them. -/
theorem Ring.sheds_resynced (r : Ring) (e : Word) : { r with position := e, resync := false }.Sheds (r.resynced e) := by
  unfold Ring.resynced
  refine Ring.Sheds.trans ⟨List.filter_sublist, ?_, rfl⟩ (Ring.sheds_settle _)
  have hcount : r.blocks.countP (fun b => b.endsBy e)
      = r.blocks.length - (r.blocks.filter fun b => !b.endsBy e).length := by
    have := List.length_eq_countP_add_countP (fun b : RingBlock => b.endsBy e) (l := r.blocks)
    rw [List.countP_eq_length_filter (p := fun b : RingBlock => Decidable.decide ¬b.endsBy e = true)] at this
    simp only [Bool.not_eq_true, Bool.decide_eq_false] at this
    omega
  exact congrArg (fun n => r.take + BitVec.ofNat 32 n) hcount

/-- Settles O18: the run of source samples is that of `Heard.next`, from the ring as its alignment leaves it. -/
theorem ringFrameKeepsPaceWithTheShow : Obligations.RingFrameKeepsPaceWithTheShow := by
  unfold Obligations.RingFrameKeepsPaceWithTheShow
  intro name e r d again sources first stale start h p
  have hal : r.alignment e = alignmentOf again d := r.alignment_eq e
  have hsources : (r.alignment e).sources = sources := by rw [hal]; exact alignmentOf_sources again d
  have hstale : (fun b : RingBlock => b.endsBy e) = stale := funext fun b => by
    unfold RingBlock.endsBy
    simp only [stale]
    cases b.state <;> rfl
  generalize hr : (if r.alignment e = .resync then r.resynced e else r) = r1
  have hbegins : r1.position = first ∧ { r with position := first, resync := false }.Sheds r1
      ∧ h = (positions sources first).foldl (Heard.next name) (r1.heard [] [] false) := by
    cases hagain : again with
    | true =>
      have hfirst : first = e := if_pos hagain
      have hmany : sources = 239 + 1 := if_pos hagain
      have hresync : r.alignment e = .resync := by rw [hal, hagain]; rfl
      have hstart : start = ⟨r.blocks.filter fun b => !b.endsBy e,
          r.take + BitVec.ofNat 32 (r.blocks.countP fun b => b.endsBy e), r.condition, [], [], false⟩ := by
        simp only [start, hagain, if_true, hstale]
      rw [if_pos hresync] at hr
      rw [hfirst, ← hr]
      refine ⟨rfl, r.sheds_resynced e, ?_⟩
      change (positions sources first).foldl (Heard.next name) start = _
      rw [hfirst, hmany, positions_succ, List.foldl_cons, List.foldl_cons, ← Heard.next_settled, hstart]
      rfl
    | false =>
      have hfirst : first = r.position := if_neg (by rw [hagain]; exact Bool.false_ne_true)
      have hstays : ¬r.alignment e = .resync := by
        rw [hal, hagain]
        unfold alignmentOf
        simp only [Bool.false_eq_true, if_false]
        split
        · exact fun g => nomatch g
        · split <;> exact fun g => nomatch g
      have hresync : r.resync = false := (Bool.or_eq_false_iff.mp hagain).1
      have hstart : start = r.heard [] [] false := by
        simp only [start, hagain, Bool.false_eq_true, if_false]
        rfl
      have hsame : { r with position := r.position, resync := false } = r := by rw [← hresync]
      rw [if_neg hstays] at hr
      rw [hfirst, ← hr, hsame]
      refine ⟨rfl, .refl r, ?_⟩
      change (positions sources first).foldl (Heard.next name) start = _
      rw [hfirst, hstart]
  obtain ⟨hposition, hsheds, hrun⟩ := hbegins
  rw [Ring.readRun_heard] at hrun
  have hgot := hsheds.trans (Ring.sheds_readRun name sources first r1)
  have hlength := Ring.readRun_samples_length name sources first r1
  have hempty := Ring.readRun_empty name sources first r1
  have hp : p = (fun got : RingRead => ({ got.ring with
        position := first + BitVec.ofNat 32 (2 * sources)
        underruns := if got.short then got.ring.underruns + 1 else got.ring.underruns },
      (r.alignment e).outputs got.samples, got.reports)) (Ring.readRun name sources first r1) := by
    rw [← hsources, ← hposition, ← hr]
    rfl
  generalize Ring.readRun name sources first r1 = got at hrun hgot hlength hempty hp
  have hh : h = got.ring.heard got.samples got.reports got.short := by simpa using hrun
  rw [← hsources] at hlength
  have hunderruns : got.ring.underruns = r.underruns := (congrArg Ring.underruns hgot.rest :)
  rw [hp, hh]
  refine ⟨rfl, (r.alignment e).outputs_length hlength, (congrArg Ring.resync hgot.rest :), hgot.blocks, hgot.take, ?_,
    (congrArg Ring.bound hgot.rest :), (congrArg Ring.capacity hgot.rest :), (congrArg Ring.fill hgot.rest :),
    (congrArg Ring.fetchGen hgot.rest :), fun hnone x hx => ?_, rfl, rfl, rfl, rfl, ?_, ?_⟩
  · change (if got.short then got.ring.underruns + 1 else got.ring.underruns) = _ ∨
      (if got.short then got.ring.underruns + 1 else got.ring.underruns) = _
    rw [hunderruns]
    cases got.short with
    | true => exact .inr rfl
    | false => exact .inl rfl
  · have hblocks : r1.blocks = [] := List.sublist_nil.mp (hnone ▸ hsheds.blocks)
    have hquiet : x = quiet := ((r.alignment e).mem_outputs hx).elim (hempty hblocks x) id
    rw [hquiet]
    exact ⟨rfl, rfl⟩
  · change (if got.short then got.ring.underruns + 1 else got.ring.underruns)
      = r.underruns + (if got.short then 1 else 0)
    rw [hunderruns]
    cases got.short with
    | true => rfl
    | false => exact (BitVec.add_zero _).symm
  · rw [← hsources]
    exact (r.alignment e).outputs_eq hlength

/-! ## The mix (R88, R89) -/

/-- R88: the bed gains of a frame, each after its output sample's step. -/
def bedGains (m : MixSettings) : List Sample → Nat → List Nat
  | [], _ => []
  | n :: ns, g => duck m n.active g :: bedGains m ns (duck m n.active g)

theorem bedGains_length (m : MixSettings) (ns : List Sample) : ∀ g, (bedGains m ns g).length = ns.length := by
  induction ns with
  | nil => exact fun _ => rfl
  | cons n ns ih => exact fun g => congrArg (· + 1) (ih _)

/-- R89: a limited output keeps to 16 bits. -/
theorem mixLimit_toInt (y : Int) : (mixLimit y).toInt = max (-32768) (min 32767 y) := by
  unfold mixLimit
  rw [BitVec.toInt_ofInt]
  exact Int.bmod_eq_of_le (by omega) (by omega)

theorem clips_iff (y : Int) : clips y = Decidable.decide (32767 < y ∨ y < -32768) := by
  unfold clips
  rw [Bool.decide_or]

section MixRun
variable (m : MixSettings)

theorem mixRun_gain (ns : List Sample) : ∀ (bs : List Sample) (g : Nat), ns.length = bs.length →
    (mixRun m ns bs g).1 = (bedGains m ns g).getLastD g := by
  induction ns with
  | nil => exact fun _ _ _ => rfl
  | cons n ns ih =>
    intro bs g h
    cases bs with
    | nil => exact nomatch h
    | cons b bs =>
      rw [mixRun, bedGains, List.getLastD_cons]
      exact ih bs _ (Nat.succ.inj h)

/-- R89: the output at index `i` before it is limited, under the bed gains `gains`. -/
def rawAt (ns bs : List Sample) (gains : List Nat) (i : Nat) : Int :=
  ((ns.getD i quiet).value.toInt * m.gn.toNat + (bs.getD i quiet).value.toInt * (gains.getD i 0 : Nat) + 16384) / 32768

theorem mixRun_outputs (ns : List Sample) : ∀ (bs : List Sample) (g : Nat), ns.length = bs.length →
    (mixRun m ns bs g).2.1 = (List.range ns.length).map fun i => mixLimit (rawAt m ns bs (bedGains m ns g) i) := by
  induction ns with
  | nil => exact fun _ _ _ => rfl
  | cons n ns ih =>
    intro bs g h
    cases bs with
    | nil => exact nomatch h
    | cons b bs =>
      rw [List.length_cons, List.range_succ_eq_map, List.map_cons, List.map_map]
      exact congrArg₂ List.cons rfl (ih bs _ (Nat.succ.inj h))

theorem mixRun_clipped (ns : List Sample) : ∀ (bs : List Sample) (g : Nat), ns.length = bs.length →
    (mixRun m ns bs g).2.2 = (List.range ns.length).countP fun i => clips (rawAt m ns bs (bedGains m ns g) i) := by
  induction ns with
  | nil => exact fun _ _ _ => rfl
  | cons n ns ih =>
    intro bs g h
    cases bs with
    | nil => exact nomatch h
    | cons b bs =>
      rw [List.length_cons, List.range_succ_eq_map, List.countP_cons, List.countP_map, Nat.add_comm]
      exact congrArg₂ (· + ·) rfl (ih bs _ (Nat.succ.inj h))

/-- R88: each bed gain is one step from the one before. -/
theorem bedGains_steps (ns : List Sample) : ∀ (g i : Nat), i < ns.length →
    (bedGains m ns g).getD i 0 = duck m (ns.getD i quiet).active ((g :: bedGains m ns g).getD i 0) := by
  induction ns with
  | nil => exact fun _ _ h => nomatch h
  | cons n ns ih =>
    intro g i h
    cases i with
    | zero => rfl
    | succ i => exact ih _ i (Nat.lt_of_succ_lt_succ h)

end MixRun

/-- Settles O19: the bed gains are those of `duck`, step by step. -/
theorem mixRampsTheBedGainAndLimitsTheOutput : Obligations.MixRampsTheBedGainAndLimitsTheOutput := by
  unfold Obligations.MixRampsTheBedGainAndLimitsTheOutput
  intro m ns bs g hlength
  refine ⟨bedGains m ns g, bedGains_length m ns g, ?_⟩
  intro raw
  have hraw (i : Nat) : raw i = rawAt m ns bs (bedGains m ns g) i := rfl
  refine ⟨fun i hi => ?_, mixRun_gain m ns bs g hlength, ?_, ?_⟩
  · intro before now target
    have hstep : now = duck m (ns.getD i quiet).active before := bedGains_steps m ns g i hi
    have hduck : now = if before > target then max target (before - m.attack.toNat)
        else if before < target then min target (before + m.release.toNat) else before := hstep
    refine ⟨fun h => hduck.trans (if_pos h), fun h => ?_, fun h => ?_, ?_⟩
    · exact hduck.trans ((if_neg (Nat.lt_asymm h)).trans (if_pos h))
    · exact hduck.trans ((if_neg (by omega)).trans (if_neg (by omega)))
    · rw [mixRun_outputs m ns bs g hlength, hraw, ← mixLimit_toInt, List.getD_eq_getElem _ _ (by simpa using hi)]
      simp
  · rw [mixRun_outputs m ns bs g hlength, List.length_map, List.length_range]
  · rw [mixRun_clipped m ns bs g hlength]
    exact List.countP_congr fun i _ => by rw [clips_iff, hraw]

end Sys2Proof.Machine
end

section
/-! SUPPORT. The mixer's part of a frame (R80, R86 to R90) and closing frames (R113). -/

namespace Sys2Proof.Machine

/-! ## A frame's voices (R80 to R90) -/

section Frame
variable (m : Mixer) (mask : BitVec 2) (rec : BoundaryRecord)

theorem BoundaryRecord.plays_eq : rec.state.plays = rec.plays := by
  unfold BoundaryRecord.plays
  cases rec.state <;> rfl

theorem BoundaryRecord.plays_eq_false (hlocked : rec.state ≠ .locked) (hflywheel : rec.state ≠ .flywheel) :
    rec.plays = false := by
  unfold BoundaryRecord.plays
  simp [hlocked, hflywheel]

theorem Mixer.given_muted {rec : BoundaryRecord} (h : rec.plays = false) (name : RingName) :
    m.given mask rec name = (m.ring name, List.replicate 240 quiet, []) := by
  unfold Mixer.given
  rw [h]
  rfl

theorem Mixer.voice_muted {rec : BoundaryRecord} (h : rec.plays = false) (v : Bool) :
    m.voice mask rec v = (if v then m.gainB else m.gainA, List.replicate 240 0, 0) := by
  unfold Mixer.voice
  rw [h]
  rfl

/-- The narration sections of the enabled channels, one of each channel. -/
theorem enabledSections (f : Bool → AirSection) :
    ([false, true].filter fun v => mask.getLsbD v.toNat).map f
      = (if enabledA mask then [f false] else []) ++ if enabledB mask then [f true] else [] := by
  have hA : mask.getLsbD false.toNat = enabledA mask := rfl
  have hB : mask.getLsbD true.toNat = enabledB mask := rfl
  simp only [List.filter_cons, List.filter_nil, hA, hB]
  cases enabledA mask <;> cases enabledB mask <;> rfl

theorem silence_all : (List.replicate 240 (0 : Half)).all (· == 0) = true := by
  rw [List.all_replicate]
  rfl

/-- A frame is made of its rings and its voices. -/
theorem Mixer.frame_eq : m.frame mask rec = (m.afterFrame mask rec, m.voices mask rec, m.frameReports mask rec) := by
  unfold Mixer.frame Mixer.afterFrame Mixer.voices Mixer.frameReports
  rw [rec.plays_eq, enabledSections]
  cases hplays : rec.plays with
  | false =>
    simp only [m.given_muted mask hplays, m.voice_muted mask hplays]
    have hclipped (c : Word) : c + BitVec.ofNat 32 0 = c := BitVec.add_zero c
    rw [hclipped, hclipped, silence_all, if_neg Bool.false_ne_true]
    rfl
  | true =>
    have hgiven (name : RingName) : m.given mask rec name
        = (m.ring name).playIf (m.uses mask name) name rec.showTime := by
      unfold Mixer.given
      rw [hplays, Bool.true_and]
      rfl
    have hmixed (v : Bool) (ns bs : List Sample) (gain : Nat)
        (hns : (m.given mask rec (if v then .b else .a)).2.1 = ns) (hbs : (m.given mask rec .bed).2.1 = bs)
        (hgain : (if v then m.gainB else m.gainA) = gain) {x : Nat × List Half × Nat}
        (hx : x = if mask.getLsbD v.toNat then mixRun m.settings ns bs gain else (gain, [], 0)) :
        x.1 = (m.voice mask rec v).1 ∧ x.2.2 = (m.voice mask rec v).2.2
          ∧ (if mask.getLsbD v.toNat then [playedSection v x.2.1] else [])
            = if mask.getLsbD v.toNat then [playedSection v (m.voice mask rec v).2.1] else [] := by
      unfold Mixer.voice
      rw [hx, hplays, Bool.true_and, hns, hbs, hgain]
      cases mask.getLsbD v.toNat with
      | true => exact ⟨rfl, rfl, rfl⟩
      | false => exact ⟨rfl, rfl, (if_neg Bool.false_ne_true).trans (if_neg Bool.false_ne_true).symm⟩
    obtain ⟨hgainA, hclippedA, hsectionA⟩ := hmixed false _ _ _ rfl rfl rfl rfl
    obtain ⟨hgainB, hclippedB, hsectionB⟩ := hmixed true _ _ _ rfl rfl rfl rfl
    simp only [hgiven] at hgainA hclippedA hsectionA hgainB hclippedB hsectionB
    rw [if_pos rfl]
    refine Prod.ext ?_ (Prod.ext ?_ ?_)
    · simp only [hgiven, ← hgainA, ← hgainB, ← hclippedA, ← hclippedB]
      rfl
    · exact congrArg₂ (· ++ ·) hsectionA hsectionB
    · simp only [List.flatMap_cons, List.flatMap_nil, List.append_nil, hgiven, ← List.append_assoc]
      rfl

theorem Ring.play_length (name : RingName) (e : Word) (r : Ring) : (r.play name e).2.1.length = 240 :=
  Alignment.outputs_length _ (Ring.readRun_samples_length name _ _ _)

theorem Ring.play_empty (name : RingName) (e : Word) {r : Ring} (h : r.blocks = []) :
    ∀ y ∈ (r.play name e).2.1, y = quiet := by
  intro y hy
  have hblocks : (if r.alignment e = .resync then r.resynced e else r).blocks = [] := by
    split
    · refine List.eq_nil_of_sublist_nil ((Ring.settle_blocks _).sublist.trans ?_)
      rw [h]
      exact List.Sublist.refl _
    · exact h
  obtain hy | hy := (r.alignment e).mem_outputs hy
  · exact Ring.readRun_empty name _ _ _ hblocks y hy
  · exact hy

theorem Mixer.given_length (name : RingName) : (m.given mask rec name).2.1.length = 240 := by
  unfold Mixer.given
  split
  · exact Ring.play_length name _ _
  · exact List.length_replicate

theorem Mixer.given_empty {name : RingName} (h : (m.ring name).blocks = []) :
    ∀ y ∈ (m.given mask rec name).2.1, y = quiet := by
  unfold Mixer.given
  split
  · exact Ring.play_empty name _ h
  · exact fun y hy => List.eq_of_mem_replicate hy

theorem Mixer.voice_cases (v : Bool) : (∃ name g, (m.voice mask rec v).2.1
      = (mixRun m.settings (m.given mask rec name).2.1 (m.given mask rec .bed).2.1 g).2.1)
    ∨ (m.voice mask rec v).2.1 = List.replicate 240 0 := by
  by_cases h : rec.plays && mask.getLsbD v.toNat
  · exact .inl ⟨_, _, congrArg (fun x : Nat × List Half × Nat => x.2.1) (if_pos h)⟩
  · exact .inr (congrArg (fun x : Nat × List Half × Nat => x.2.1) (if_neg h))

theorem Mixer.voice_length (v : Bool) : (m.voice mask rec v).2.1.length = 240 := by
  obtain ⟨name, g, h⟩ | h := m.voice_cases mask rec v <;> rw [h]
  · rw [mixRun_outputs _ _ _ _ (by rw [m.given_length, m.given_length]), List.length_map, List.length_range,
      m.given_length]
  · exact List.length_replicate

/-- R89: silence of both sources is silence. -/
theorem mixRun_silence (u : MixSettings) {ns bs : List Sample} (g : Nat) (hlength : ns.length = bs.length)
    (hns : ∀ y ∈ ns, y = quiet) (hbs : ∀ y ∈ bs, y = quiet) :
    (mixRun u ns bs g).2.1 = List.replicate ns.length 0 := by
  have hquiet {l : List Sample} (h : ∀ y ∈ l, y = quiet) (i : Nat) : l.getD i quiet = quiet := by
    rw [List.getD_eq_getElem?_getD]
    cases hi : l[i]? with
    | none => rfl
    | some y => exact h y (List.mem_of_getElem? hi)
  rw [mixRun_outputs u ns bs g hlength]
  refine List.eq_replicate_iff.mpr ⟨by rw [List.length_map, List.length_range], fun y hy => ?_⟩
  obtain ⟨i, _, rfl⟩ := List.mem_map.mp hy
  unfold rawAt
  rw [hquiet hns, hquiet hbs]
  have hzero : quiet.value.toInt = 0 := rfl
  rw [hzero, Int.zero_mul, Int.zero_mul]
  rfl

/-- R113: rings without blocks give silent narration (log entry 29). -/
theorem Mixer.voice_silent (h : ∀ name, (m.ring name).blocks = []) (v : Bool) :
    (m.voice mask rec v).2.1 = List.replicate 240 0 := by
  obtain ⟨name, g, hvoice⟩ | hvoice := m.voice_cases mask rec v <;> rw [hvoice]
  rw [mixRun_silence _ _ (by rw [m.given_length, m.given_length]) (m.given_empty mask rec (h _))
      (m.given_empty mask rec (h _)), m.given_length]

theorem Mixer.voices_silent (h : ∀ v, (m.voice mask rec v).2.1 = List.replicate 240 0) : m.voices mask rec
    = ([false, true].filter fun v => mask.getLsbD v.toNat).map fun v => .narration v true (List.replicate 240 0) := by
  unfold Mixer.voices
  refine List.map_congr_left fun v _ => ?_
  rw [h v, silence_all]

end Frame

/-! ## A build point -/

section BuildPoint
variable (s : State) (k : Aud)

/-- R80 to R90: the mixer of auditorium `a` and its build mark as a frame leaves them. -/
def Auditorium.mixed (a : Auditorium) (m : Mixer) : Auditorium := { a with buildDue := false, mixer := m }

theorem sparesWriter_mixed (m : Mixer) : SparesWriter fun a => a.mixed m := fun _ _ => rfl

/-- The Mixer's part of a build point: the frame's reports, and the mixer as the frame leaves it. -/
theorem State.mixFrame_eq (s : State) (k : Aud) :
    let mask := (s.aud k).unit.channels.narration
    let rec' := (s.aud k).clock.record
    (s.modAud k fun a => { a with buildDue := false }).mixFrame k
      = ((s.reportAll k ((s.aud k).mixer.frameReports mask rec')).modAud k
          fun a => a.mixed ((s.aud k).mixer.afterFrame mask rec'), (s.aud k).mixer.voices mask rec') := by
  intro mask rec'
  have hframe : (s.modAud k fun a => { a with buildDue := false }).mixFrame k
      = (((s.modAud k fun a => { a with buildDue := false }).modMixer k
          fun _ => ((s.aud k).mixer.frame mask rec').1).reportAll k ((s.aud k).mixer.frame mask rec').2.2,
        ((s.aud k).mixer.frame mask rec').2.1) := by
    unfold State.mixFrame
    rw [State.aud_modAud_same]
  rw [hframe, Mixer.frame_eq, State.modMixer_def, State.modAud_modAud]
  exact congrArg (·, _) (s.reportAll_modAud k (sparesWriter_mixed _) _)

/-- R118: a frame handed on to a link. -/
theorem Link.handoff_idle {l : Link} (h : l.frame = none) (f : AirFrame) : l.handoff f = l.fly f := by
  unfold Link.handoff
  rw [h]

theorem Link.handoff_busy {l : Link} (h : l.frame ≠ none) (f : AirFrame) : l.handoff f
    = { l with next := some f, dropped := l.dropped + (if l.next = none then 0 else 1) } := by
  have hzero (w : Word) : w + 0 = w := BitVec.add_zero w
  unfold Link.handoff Link.countDrop
  cases hframe : l.frame with
  | none => exact absurd hframe h
  | some g =>
    cases hnext : l.next with
    | none =>
      rw [if_pos rfl, hzero]
    | some g' => rfl

/-- R113: an auditorium after a closing frame of its mixer `m` with the narration `sections`. -/
def Auditorium.closed (k : Aud) (sections : List AirSection) (a : Auditorium) : Auditorium :=
  let r := a.builder.buildClosing k a.unit.channels a.clock.record sections
  { a with
    builder := r.1, link := a.link.handoff r.2
    unit := if r.1.closing = 0 then { a.unit with showState := .halted } else a.unit }

theorem State.buildClosing_eq (sections : List AirSection) :
    s.buildClosing k sections = s.modAud k fun _ => (s.aud k).closed k sections := by
  unfold State.buildClosing State.handOn Auditorium.closed
  simp only [State.modBuilder_def, State.modLink_def, State.modUnit_def, State.modAud_modAud]
  split <;> exact State.modAud_congr rfl

end BuildPoint

/-- Settles O21. -/
theorem closingFramesEndTheShow : Obligations.ClosingFramesEndTheShow := by
  unfold Obligations.ClosingFramesEndTheShow
  intro k s hdue hrunning hshow hclosing b old link mask rec' narration silence f reported
  have hexec : exec (.buildPoint k) s = .next (reported.modAud k fun a =>
      (a.mixed (old.afterFrame mask rec')).closed k narration) := by
    refine congrArg Host.Outcome.next ((if_pos hdue).trans ?_)
    unfold State.takeBuildPoint
    rw [if_pos hrunning, hshow, s.mixFrame_eq k]
    refine (State.buildClosing_eq _ _ _).trans ?_
    rw [State.modAud_modAud]
    exact State.modAud_congr (congrArg (Auditorium.closed k narration) (State.aud_modAud_same ..))
  have haud : (reported.aud k) = { s.aud k with writer := (reported.aud k).writer } := s.reportAll_aud k _ k
  refine ⟨_, hexec, (s.onlyAud_reportAll k _).trans (State.onlyAud_modAud _ k _), rfl, ?_, ?_, ?_, ?_⟩
  · have hlast : b.closing - 1 = 0 ↔ b.closing = 1 := by
      have hb : 1 ≤ b.closing := hclosing
      omega
    rw [State.aud_modAud_same, haud]
    have hunit : (if b.closing - 1 = 0 then { (s.aud k).unit with showState := .halted } else (s.aud k).unit)
        = { (s.aud k).unit with showState := if b.closing = 1 then .halted else .closing } := by
      by_cases h : b.closing = 1
      · rw [if_pos (hlast.mpr h), if_pos h]
      · rw [if_neg (mt hlast.mp h), if_neg h, ← hshow]
    exact congrArg (fun u => { (s.aud k) with
      buildDue := false, mixer := old.afterFrame mask rec', writer := (reported.aud k).writer
      builder := (b.buildClosing k (s.aud k).unit.channels rec' narration).1, unit := u
      link := link.handoff f }) hunit
  · rintro (⟨hlocked, hflywheel⟩ | hempty)
    · exact old.voices_silent mask rec' fun v => by rw [old.voice_muted mask (rec'.plays_eq_false hlocked hflywheel)]
    · exact old.voices_silent mask rec' (old.voice_silent mask rec' hempty)
  · intro hnone
    rw [State.aud_modAud_same, haud]
    exact Link.handoff_idle hnone f
  · intro hsome
    rw [State.aud_modAud_same, haud]
    exact Link.handoff_busy hsome f

end Sys2Proof.Machine
end

section
/-! SUPPORT. The prefetch of the rings (R75, R79). -/

namespace Sys2Proof.Machine

/-! ## The blocks a ring asks for (R79) -/

/-- A ring that has asked for the blocks `l` (R79). -/
def Ring.reads (r : Ring) (l : List Word) : Ring :=
  { r with blocks := r.blocks ++ l.map fun n => { number := n, state := .reading } }

section Ahead
variable (r : Ring)

theorem Ring.reads_nil : r.reads [] = r := by
  unfold Ring.reads
  rw [List.map_nil, List.append_nil]

theorem Ring.reads_append (l m : List Word) : (r.reads l).reads m = r.reads (l ++ m) := by
  unfold Ring.reads
  rw [List.map_append, List.append_assoc]

theorem Ring.ahead_of_wants_none (h : r.wants = none) : r.ahead = [] := by
  unfold Ring.ahead
  have hfull : ¬(r.blocks.length < 3 ∧ r.blocks.length < r.holds) := by
    intro hroom
    rw [Ring.wants, if_pos hroom] at h
    exact nomatch h
  rw [List.drop_eq_nil_of_le (by rw [List.length_range]; omega), List.map_nil]

theorem Ring.ahead_of_wants {n : Word} (h : r.wants = some n) : r.ahead = n :: (r.reads [n]).ahead := by
  unfold Ring.wants at h
  split at h
  · next hroom =>
    cases h
    have hholds : (r.reads [r.take + BitVec.ofNat 32 r.blocks.length]).holds = r.holds := rfl
    have hlength : (r.reads [r.take + BitVec.ofNat 32 r.blocks.length]).blocks.length = r.blocks.length + 1 := by
      unfold Ring.reads
      rw [List.length_append, List.length_map, List.length_singleton]
    unfold Ring.ahead
    rw [hholds, hlength, List.drop_eq_getElem_cons (by rw [List.length_range]; omega), List.map_cons,
      List.getElem_range]
    rfl
  · exact nomatch h

theorem Ring.ahead_full (h : 3 ≤ r.blocks.length) : r.ahead = [] := by
  refine r.ahead_of_wants_none ?_
  unfold Ring.wants
  exact if_neg (by omega)

end Ahead

/-! ## One read (R75, R79) -/

/-- Role, place, length, bytes and purpose of an access. -/
def Access.described (a : Access) : Role × Nat × Nat × List Byte × Purpose :=
  (a.role, a.offset, a.length, a.data, a.purpose)

/-- R75, R79: the read of block `x.2` of ring `x.1`. -/
def Mixer.blockRead (m : Mixer) (x : RingName × Word) : Role × Nat × Nat × List Byte × Purpose :=
  (x.1.role, (m.ring x.1).offsetOf x.2, 512, [], .blockRead x.1 (m.ring x.1).fetchGen x.2)

/-- The blocks of ring `name` among those asked for. -/
def asksOf (l : List (RingName × Word)) (name : RingName) : List Word :=
  l.filterMap fun x => if x.1 = name then some x.2 else none

theorem asksOf_append (l m : List (RingName × Word)) (name : RingName) :
    asksOf (l ++ m) name = asksOf l name ++ asksOf m name := List.filterMap_append

theorem asksOf_same (name : RingName) (l : List Word) : asksOf (l.map (name, ·)) name = l := by
  unfold asksOf
  rw [List.filterMap_map]
  exact (List.filterMap_congr fun n _ => if_pos rfl).trans List.filterMap_some

theorem asksOf_other {name other : RingName} (h : name ≠ other) (l : List Word) :
    asksOf (l.map (name, ·)) other = [] := by
  unfold asksOf
  rw [List.filterMap_map]
  exact List.filterMap_eq_nil_iff.mpr fun n _ => if_neg h

/-- Between `s` and `t` the mixer of auditorium `k` has asked for the blocks `l`, and nothing else has changed there but
the accesses in flight. -/
structure State.Asks (k : Aud) (s t : State) (l : List (RingName × Word)) : Prop where
  makes : ∃ made, State.Makes k s t made ∧ made.map Access.described = l.map (s.aud k).mixer.blockRead
  aud : t.aud k = { s.aud k with mixer := (t.aud k).mixer }
  ring : ∀ name, (t.aud k).mixer.ring name = ((s.aud k).mixer.ring name).reads (asksOf l name)

section Asks
variable {k : Aud} {s t u : State}

theorem State.Asks.refl (k : Aud) (s : State) : State.Asks k s s [] :=
  ⟨⟨[], .refl k s, rfl⟩, rfl, fun _ => (Ring.reads_nil _).symm⟩

theorem State.Asks.blockRead {l : List (RingName × Word)} (h : State.Asks k s t l) :
    (t.aud k).mixer.blockRead = (s.aud k).mixer.blockRead := by
  funext x
  unfold Mixer.blockRead
  rw [h.ring]
  rfl

theorem State.Asks.trans {l m : List (RingName × Word)} (h : State.Asks k s t l) (g : State.Asks k t u m) :
    State.Asks k s u (l ++ m) where
  makes := by
    obtain ⟨made, hmade, hl⟩ := h.makes
    obtain ⟨made', hmade', hm⟩ := g.makes
    exact ⟨_, hmade.trans hmade', by rw [List.map_append, List.map_append, hl, hm, h.blockRead]⟩
  aud := g.aud.trans (congrArg (fun a : Auditorium => { a with mixer := (u.aud k).mixer }) h.aud)
  ring := fun name => by rw [g.ring, h.ring, Ring.reads_append, asksOf_append]

/-- R75: ring `name` is bound to a region that holds its capacity. -/
def State.Holds (s : State) (k : Aud) (name : RingName) : Prop :=
  ∃ x, s.binding k name.role = some x ∧ 1 ≤ ((s.aud k).mixer.ring name).capacity
    ∧ ((s.aud k).mixer.ring name).capacity * 512 ≤ x.limit.toNat + 1

theorem State.Asks.holds {l : List (RingName × Word)} (h : State.Asks k s t l) {name : RingName}
    (hx : s.Holds k name) : t.Holds k name := by
  obtain ⟨_, hmakes, _⟩ := h.makes
  obtain ⟨x, hbound, hcapacity⟩ := hx
  refine ⟨x, (State.binding_congr hmakes.bindings k _).trans hbound, ?_⟩
  rw [h.ring]
  exact hcapacity

theorem Ring.offsetOf_within {r : Ring} (hone : 1 ≤ r.capacity) {limit : Nat} (hcapacity : r.capacity * 512 ≤ limit + 1)
    (n : Word) : r.offsetOf n + 512 - 1 ≤ limit := by
  have hmod : n.toNat % r.capacity < r.capacity := Nat.mod_lt _ hone
  unfold Ring.offsetOf
  omega

theorem State.prefetchOne_none {name : RingName} (h : ((s.aud k).mixer.ring name).wants = none) :
    s.prefetchOne k name = s := by
  unfold State.prefetchOne
  simp only [h]

/-- R79: a ring that wants a block asks for it. -/
theorem State.prefetchOne_asks {name : RingName} {n : Word} (h : ((s.aud k).mixer.ring name).wants = some n)
    (hx : s.Holds k name) : State.Asks k s (s.prefetchOne k name) [(name, n)] := by
  obtain ⟨x, hbound, hone, hcapacity⟩ := hx
  have hwithin := Ring.offsetOf_within hone hcapacity n
  obtain ⟨a, hmakes, hrole, hoffset, hlength, hdata, hpurpose, _⟩ := State.makes_access_made hbound hwithin []
    (.blockRead name ((s.aud k).mixer.ring name).fetchGen n)
  have hone : s.prefetchOne k name = (s.access k name.role (((s.aud k).mixer.ring name).offsetOf n) 512 []
      (.blockRead name ((s.aud k).mixer.ring name).fetchGen n)).1.modMixer k
        fun m => m.modRing name fun r => r.addReading n := by
    unfold State.prefetchOne
    rw [State.access_made hbound hwithin]
    simp only [h]
    rw [State.access_made hbound hwithin]
  rw [hone, State.modMixer_def]
  rw [State.access_made hbound hwithin] at hmakes ⊢
  refine ⟨⟨[a], hmakes.then_modAud _, ?_⟩, ?_, fun other => ?_⟩
  · unfold Access.described Mixer.blockRead
    rw [List.map_singleton, hrole, hoffset, hlength, hdata, hpurpose]
    rfl
  · rw [State.aud_modAud_same]
    rfl
  · rw [State.aud_modAud_same]
    by_cases hother : name = other
    · subst hother
      have hasks : asksOf [(name, n)] name = [n] := asksOf_same name [n]
      rw [hasks]
      exact Mixer.ring_modRing_same _ name _
    · have hasks : asksOf [(name, n)] other = [] := asksOf_other hother [n]
      rw [hasks, Ring.reads_nil]
      exact Mixer.ring_modRing_ne _ (Ne.symm hother) _

/-! ## The prefetch of a ring and of all (R79) -/

/-- One step of the prefetch asks for the next of the blocks ahead, where there is one. -/
theorem State.prefetchOne_ahead {name : RingName} (hx : s.Holds k name) :
    ∃ w, State.Asks k s (s.prefetchOne k name) (w.map (name, ·)) ∧ w.length ≤ 1
      ∧ ((s.aud k).mixer.ring name).ahead = w ++ (((s.aud k).mixer.ring name).reads w).ahead
      ∧ (w = [] → ((s.aud k).mixer.ring name).ahead = []) := by
  cases h : ((s.aud k).mixer.ring name).wants with
  | none =>
    rw [State.prefetchOne_none h]
    have hnone := Ring.ahead_of_wants_none _ h
    exact ⟨[], .refl k s, Nat.zero_le _, by rw [Ring.reads_nil]; rfl, fun _ => hnone⟩
  | some n => exact ⟨[n], State.prefetchOne_asks h hx, Nat.le_refl _, Ring.ahead_of_wants _ h, fun hnil => nomatch hnil⟩

/-- The prefetch of a used ring asks for all the blocks ahead, of an unused one for none. -/
theorem State.prefetch_asks {name : RingName} {use : Bool} (hx : use = true → s.Holds k name) :
    State.Asks k s (s.prefetch k name use)
      ((if use then ((s.aud k).mixer.ring name).ahead else []).map (name, ·)) := by
  unfold State.prefetch
  cases use with
  | false => exact .refl k s
  | true =>
    have hs := hx rfl
    obtain ⟨u, hu, _, hahead, hnone⟩ := State.prefetchOne_ahead hs
    obtain ⟨v, hv, _, hahead', hnone'⟩ := State.prefetchOne_ahead (hu.holds hs)
    obtain ⟨w, hw, _, hahead'', hnone''⟩ := State.prefetchOne_ahead (hv.holds (hu.holds hs))
    rw [hu.ring, asksOf_same] at hahead' hnone'
    rw [hv.ring, asksOf_same, hu.ring, asksOf_same, Ring.reads_append] at hahead'' hnone''
    rw [Ring.reads_append] at hahead' hahead''
    have hlast : (((s.aud k).mixer.ring name).reads (u ++ v ++ w)).ahead = [] := by
      rw [hahead''] at hahead' hnone''
      rw [hahead'] at hahead hnone'
      rw [hahead] at hnone
      by_cases hu0 : u = []
      · exact (List.append_eq_nil_iff.mp (List.append_eq_nil_iff.mp (List.append_eq_nil_iff.mp (hnone hu0)).2).2).2
      by_cases hv0 : v = []
      · exact (List.append_eq_nil_iff.mp (List.append_eq_nil_iff.mp (hnone' hv0)).2).2
      by_cases hw0 : w = []
      · exact (List.append_eq_nil_iff.mp (hnone'' hw0)).2
      · have hu1 := List.length_pos_iff.mpr hu0
        have hv1 := List.length_pos_iff.mpr hv0
        have hw1 := List.length_pos_iff.mpr hw0
        refine Ring.ahead_full _ ?_
        simp only [Ring.reads, List.length_append, List.length_map]
        omega
    rw [if_pos rfl, if_pos rfl, hahead, hahead', hahead'', hlast, List.append_nil, List.map_append, List.map_append,
      ← List.append_assoc]
    exact (hu.trans hv).trans hw

/-- R79: the prefetch of the rings in use. -/
theorem State.prefetchAll_asks {asked : RingName → List Word}
    (hasked : ∀ name, asked name = if (s.aud k).mixer.uses (s.aud k).unit.channels.narration name
      then ((s.aud k).mixer.ring name).ahead else [])
    (hx : ∀ name, (s.aud k).mixer.uses (s.aud k).unit.channels.narration name = true → s.Holds k name) :
    State.Asks k s (s.prefetchAll k) ([RingName.a, .b, .bed].flatMap fun name => (asked name).map (name, ·)) := by
  have ha := State.prefetch_asks (hx .a)
  rw [← hasked .a] at ha
  have hb := State.prefetch_asks fun h => ha.holds (hx .b h)
  rw [ha.ring, asksOf_other (by decide), Ring.reads_nil, ← hasked .b] at hb
  have hbed := State.prefetch_asks fun h => hb.holds (ha.holds (hx .bed h))
  rw [hb.ring, asksOf_other (by decide), Ring.reads_nil, ha.ring, asksOf_other (by decide), Ring.reads_nil,
    ← hasked .bed] at hbed
  have hall := (ha.trans hb).trans hbed
  rw [List.append_assoc, ← List.append_nil ((asked .bed).map _)] at hall
  exact hall

/-! ## What the prefetch leaves alone -/

/-- The rings apart, `m'` is as `m`. -/
def Mixer.SameRest (m m' : Mixer) : Prop := m' = { m with ringA := m'.ringA, ringB := m'.ringB, bed := m'.bed }

/-- From `s` to `t` rings of auditorium `k` and its Report Writer may change, and nothing else of its blocks. -/
structure State.Prefetches (k : Aud) (s t : State) : Prop where
  only : State.OnlyAud k s t
  aud : t.aud k = { s.aud k with mixer := (t.aud k).mixer, writer := (t.aud k).writer }
  rest : (s.aud k).mixer.SameRest (t.aud k).mixer

theorem State.Prefetches.refl (k : Aud) (s : State) : State.Prefetches k s s := ⟨.refl k s, rfl, rfl⟩

theorem State.Prefetches.trans (h : State.Prefetches k s t) (g : State.Prefetches k t u) : State.Prefetches k s u where
  only := h.only.trans g.only
  aud := g.aud.trans (congrArg
    (fun a : Auditorium => { a with mixer := (u.aud k).mixer, writer := (u.aud k).writer }) h.aud)
  rest := g.rest.trans (congrArg (fun m : Mixer => { m with
    ringA := (u.aud k).mixer.ringA, ringB := (u.aud k).mixer.ringB, bed := (u.aud k).mixer.bed }) h.rest)

theorem State.prefetches_modRing (s : State) (k : Aud) (name : RingName) (f : Ring → Ring) :
    State.Prefetches k s (s.modMixer k fun m => m.modRing name f) := by
  rw [State.modMixer_def]
  refine ⟨s.onlyAud_modAud k _, ?_, ?_⟩ <;> rw [State.aud_modAud_same]
  exact Mixer.modRing_rest _ name f

theorem State.prefetches_access (s : State) (k : Aud) (role : Role) (offset length : Nat) (data : List Byte)
    (purpose : Purpose) : State.Prefetches k s (s.access k role offset length data purpose).1 := by
  have haud := s.access_aud k role offset length data purpose k
  have hmixer : ((s.access k role offset length data purpose).1.aud k).mixer = (s.aud k).mixer :=
    (congrArg Auditorium.mixer haud :)
  refine ⟨s.onlyAud_access k role offset length data purpose, ?_, ?_⟩ <;> rw [hmixer]
  · exact haud
  · rfl

theorem State.prefetches_prefetchOne (s : State) (k : Aud) (name : RingName) :
    State.Prefetches k s (s.prefetchOne k name) := by
  unfold State.prefetchOne
  simp only
  split
  · exact .refl k s
  · next n _ =>
    have haccess := s.prefetches_access k name.role (((s.aud k).mixer.ring name).offsetOf n) 512 []
      (.blockRead name ((s.aud k).mixer.ring name).fetchGen n)
    split
    · next h =>
      rw [h] at haccess
      exact haccess.trans (State.prefetches_modRing _ k name _)
    · next h =>
      rw [h] at haccess
      exact haccess

theorem State.prefetches_prefetch (s : State) (k : Aud) (name : RingName) (use : Bool) :
    State.Prefetches k s (s.prefetch k name use) := by
  unfold State.prefetch
  split
  · exact ((s.prefetches_prefetchOne k name).trans (State.prefetches_prefetchOne _ k name)).trans
      (State.prefetches_prefetchOne _ k name)
  · exact .refl k s

theorem State.prefetches_prefetchAll (s : State) (k : Aud) : State.Prefetches k s (s.prefetchAll k) :=
  ((s.prefetches_prefetch k .a _).trans (State.prefetches_prefetch _ k .b _)).trans
    (State.prefetches_prefetch _ k .bed _)

end Asks

end Sys2Proof.Machine
end

section
/-! SUPPORT. The sections of an ordinary frame (R98, R105 to R108). -/

namespace Sys2Proof.Machine

/-! ## The queue walk (R105) -/

/-- The entries of a queue numbered from `start` that are ready, with their numbers and sections. -/
def readyFrom (sec : QueueEntry → Option AirSection) (q : List QueueEntry) (start : Nat) :
    List (Nat × QueueEntry × AirSection) :=
  (q.zipIdx start).filterMap fun (e, i) => if e.waiting then none else (sec e).map fun x => (i, e, x)

/-- What a queue numbered from `start` keeps once the entries of the numbers `placed` have aired. -/
def keptFrom (placed : List Nat) (q : List QueueEntry) (start : Nat) : List QueueEntry :=
  (q.zipIdx start).flatMap fun (e, i) => if i ∈ placed then e.aired else [e]

section Walk
variable (sec : QueueEntry → Option AirSection)

theorem readyFrom_head (e : QueueEntry) (start : Nat) :
    (if e.waiting = true then none else (sec e).map fun x => (start, e, x))
      = (if e.waiting then none else sec e).map fun x => (start, e, x) := by
  split <;> rfl

theorem readyFrom_cons_none {e : QueueEntry} (h : (if e.waiting then none else sec e) = none) (rest : List QueueEntry)
    (start : Nat) : readyFrom sec (e :: rest) start = readyFrom sec rest (start + 1) :=
  List.filterMap_cons_none ((readyFrom_head sec e start).trans (by rw [h]; rfl))

theorem readyFrom_cons_some {e : QueueEntry} {x : AirSection} (h : (if e.waiting then none else sec e) = some x)
    (rest : List QueueEntry) (start : Nat) :
    readyFrom sec (e :: rest) start = (start, e, x) :: readyFrom sec rest (start + 1) :=
  List.filterMap_cons_some ((readyFrom_head sec e start).trans (by rw [h]; rfl))

theorem le_of_mem_readyFrom {q : List QueueEntry} {start : Nat} {p : Nat × QueueEntry × AirSection}
    (h : p ∈ readyFrom sec q start) : start ≤ p.1 := by
  obtain ⟨⟨e, i⟩, hmem, hp⟩ := List.mem_filterMap.mp h
  have hi := (List.mem_zipIdx hmem).1
  simp only at hp
  split at hp
  · exact nomatch hp
  · obtain ⟨x, _, rfl⟩ := Option.map_eq_some_iff.mp hp
    exact hi

theorem keptFrom_congr {placed placed' : List Nat} {start : Nat} (h : ∀ i, start ≤ i → (i ∈ placed ↔ i ∈ placed'))
    (q : List QueueEntry) : keptFrom placed q start = keptFrom placed' q start := by
  unfold keptFrom
  refine List.flatMap_congr fun x hx => ?_
  have hmem := h x.2 (List.mem_zipIdx hx).1
  simp only [hmem]

theorem keptFrom_cons (placed : List Nat) (e : QueueEntry) (rest : List QueueEntry) (start : Nat) :
    keptFrom placed (e :: rest) start
      = (if start ∈ placed then e.aired else [e]) ++ keptFrom placed rest (start + 1) := by
  unfold keptFrom
  rw [List.zipIdx_cons, List.flatMap_cons]

theorem keptFrom_nil (q : List QueueEntry) (start : Nat) : keptFrom [] q start = q := by
  induction q generalizing start with
  | nil => rfl
  | cons e rest ih => rw [keptFrom_cons, ih, if_neg List.not_mem_nil]; rfl

/-- The walk over a queue numbered from `start`, from `used` bytes, places the first `n` ready entries (R105). -/
structure Places (q : List QueueEntry) (start used : Nat) (w : Walked) (n : Nat) : Prop where
  few : n ≤ (readyFrom sec q start).length
  queue : w.queue = keptFrom (((readyFrom sec q start).take n).map Prod.fst) q start
  sections : w.sections = ((readyFrom sec q start).take n).map fun p => p.2.2
  started : w.started = ((readyFrom sec q start).take n).flatMap fun p => p.2.1.startedCue
  full : n < (readyFrom sec q start).length →
    Config.payloadLimit < used + payloadSize (((readyFrom sec q start).take (n + 1)).map fun p => p.2.2)

theorem walkQueue_places (q : List QueueEntry) : ∀ start used, ∃ n,
    Places sec q start used (walkQueue sec q used) n := by
  induction q with
  | nil => exact fun start used => ⟨0, ⟨Nat.le_refl _, rfl, rfl, rfl, fun h => nomatch h⟩⟩
  | cons e rest ih =>
    intro start used
    cases h : (if e.waiting then none else sec e) with
    | none =>
      obtain ⟨n, hn⟩ := ih (start + 1) used
      have hstart : start ∉ ((readyFrom sec rest (start + 1)).take n).map Prod.fst := by
        intro hmem
        obtain ⟨p, hp, hi⟩ := List.mem_map.mp hmem
        have := le_of_mem_readyFrom sec (List.mem_of_mem_take hp)
        omega
      refine ⟨n, ?_⟩
      unfold walkQueue
      simp only [h]
      constructor <;> rw [readyFrom_cons_none sec h]
      · exact hn.few
      · rw [keptFrom_cons, if_neg hstart, ← hn.queue]
        rfl
      · exact hn.sections
      · exact hn.started
      · exact hn.full
    | some x =>
      unfold walkQueue
      simp only [h]
      by_cases hfits : used + x.size ≤ Config.payloadLimit
      · rw [if_pos hfits]
        obtain ⟨n, hn⟩ := ih (start + 1) (used + x.size)
        refine ⟨n + 1, ?_⟩
        constructor <;> simp only [readyFrom_cons_some sec h, List.take_succ_cons, List.map_cons, List.length_cons]
        · exact Nat.succ_le_succ hn.few
        · rw [keptFrom_cons, if_pos List.mem_cons_self, hn.queue]
          refine congrArg (e.aired ++ ·) (keptFrom_congr (fun i hi => ?_) rest)
          rw [List.mem_cons, or_iff_right (by omega)]
        · rw [hn.sections]
        · rw [hn.started, List.flatMap_cons]
        · intro hlt
          have := hn.full (Nat.lt_of_succ_lt_succ hlt)
          rw [payloadSize_cons]
          omega
      · rw [if_neg hfits]
        refine ⟨0, ?_⟩
        constructor <;> simp only [readyFrom_cons_some sec h, List.take_zero, List.map_nil]
        · exact Nat.zero_le _
        · exact (keptFrom_nil _ _).symm
        · rfl
        · intro _
          rw [List.take_succ_cons, List.take_zero, List.map_singleton, payloadSize_cons]
          have : payloadSize [] = 0 := rfl
          simp only
          omega

end Walk

/-! ## The refreshes (R106, R107) -/

/-- R107: one record of a frame of whose sections `base` is placed; `acc` holds the records and refreshes before it. -/
def refreshStep (refresh : Nat) (sec : AirRecord → Option AirSection) (base : List AirSection)
    (acc : List AirRecord × List AirSection) (r : AirRecord) : List AirRecord × List AirSection :=
  match sec r with
  | some x =>
    if payloadSize (base ++ acc.2) + x.size ≤ Config.payloadLimit then (acc.1 ++ [r.placed refresh], acc.2 ++ [x])
    else (acc.1 ++ [r], acc.2)
  | none => (acc.1 ++ [r], acc.2)

section Refresh
variable (refresh : Nat) (sec : AirRecord → Option AirSection)

theorem placeRefreshes_skips {r : AirRecord} {used : Nat}
    (h : ∀ x, sec r = some x → ¬used + x.size ≤ Config.payloadLimit) (rest : List AirRecord) :
    placeRefreshes refresh sec (r :: rest) used
      = (r :: (placeRefreshes refresh sec rest used).1, (placeRefreshes refresh sec rest used).2) := by
  have hnone : (sec r).filter (fun x => used + x.size ≤ Config.payloadLimit) = none :=
    Option.filter_eq_none_iff.mpr fun x hx => by simpa using h x hx
  rw [placeRefreshes.eq_2]
  simp only [hnone]

theorem placeRefreshes_places {r : AirRecord} {x : AirSection} (hx : sec r = some x) {used : Nat}
    (h : used + x.size ≤ Config.payloadLimit) (rest : List AirRecord) :
    placeRefreshes refresh sec (r :: rest) used
      = (r.placed refresh :: (placeRefreshes refresh sec rest (used + x.size)).1,
          x :: (placeRefreshes refresh sec rest (used + x.size)).2) := by
  have hsome : (sec r).filter (fun x => used + x.size ≤ Config.payloadLimit) = some x := by
    rw [hx, Option.filter_some, if_pos (decide_eq_true h)]
  rw [placeRefreshes.eq_2]
  simp only [hsome]

theorem placeRefreshes_eq_foldl (base : List AirSection) (l : List AirRecord) :
    ∀ acc : List AirRecord × List AirSection, l.foldl (refreshStep refresh sec base) acc
      = (acc.1 ++ (placeRefreshes refresh sec l (payloadSize (base ++ acc.2))).1,
          acc.2 ++ (placeRefreshes refresh sec l (payloadSize (base ++ acc.2))).2) := by
  induction l with
  | nil => exact fun acc => by simp [placeRefreshes]
  | cons r rest ih =>
    intro acc
    rw [List.foldl_cons, ih]
    unfold refreshStep
    cases h : sec r with
    | none =>
      rw [placeRefreshes_skips refresh sec (fun x hx => by rw [h] at hx; exact nomatch hx) rest]
      simp
    | some x =>
      by_cases hfits : payloadSize (base ++ acc.2) + x.size ≤ Config.payloadLimit
      · have hsize : payloadSize (base ++ (acc.2 ++ [x])) = payloadSize (base ++ acc.2) + x.size := by
          rw [← List.append_assoc, payloadSize_append _ [x]]
          rfl
        rw [placeRefreshes_places refresh sec h hfits]
        simp only [if_pos hfits, hsize, List.append_assoc, List.singleton_append]
      · rw [placeRefreshes_skips refresh sec (fun y hy => by rw [h] at hy; cases hy; exact hfits) rest]
        simp only [if_neg hfits, List.append_assoc, List.singleton_append]

end Refresh

/-! ## The sections of queue entries and records (R105, R108, R109) -/

section Sections
variable (active : Vector (List ActiveCue) 4) (now : Word)

theorem sectionOfStart_eq (channel : Channel) (cue : CueId) (refresh reentered : Bool) :
    sectionOfStart active[channel] channel cue refresh reentered now
      = (findActive active channel cue).map fun a => startSection channel a refresh reentered now := by
  have hfind : (active[channel].find? fun a => Decidable.decide (a.cue = cue)) = findActive active channel cue := rfl
  unfold sectionOfStart
  rw [hfind]
  cases h : findActive active channel cue with
  | none => rfl
  | some a =>
    have hcue : a.cue = cue := eq_of_beq (List.find?_some h :)
    rw [← hcue]
    rfl

theorem find?_stepCountdowns (records : List AirRecord) (cue : CueId) :
    (stepCountdowns records).find? (·.cue == cue)
      = (records.find? fun r => r.cue = cue).map fun r => { r with countdown := r.countdown - 1 } :=
  List.find?_map

/-- The section of an entry reads nothing of the countdowns. -/
theorem entrySection_eq {a : Auditorium} (h : a.seq.active = active) (e : QueueEntry) :
    entrySection (stepCountdowns a.builder.records) active now e = sectionOfEntry a now e := by
  subst h
  rcases e with ⟨kind, channel, cue, copies, waiting⟩
  cases kind with
  | clear => cases cue <;> rfl
  | finish => cases cue <;> rfl
  | start => cases cue with
    | none => rfl
    | some cue =>
      unfold entrySection sectionOfEntry
      simp only [find?_stepCountdowns, sectionOfStart_eq]
      cases findActive a.seq.active channel cue <;> cases a.builder.records.find? (fun r => r.cue = cue) <;> rfl

theorem AirRecord.due_iff (queue : List QueueEntry) (r : AirRecord) : r.due queue = true
    ↔ r.countdown = 0 ∧ r.textHeld = true ∧ ∀ e ∈ queue, ¬(e.kind = .start ∧ e.cue = some r.cue) := by
  unfold AirRecord.due QueueEntry.isStartOf
  simp [and_assoc]

end Sections

/-! ## An ordinary frame (R98, R99) -/

/-- The cues whose START entries are placed (R105). -/
theorem startedCue_flatMap (l : List (Nat × QueueEntry × AirSection)) : l.flatMap (fun p => p.2.1.startedCue)
    = l.filterMap fun p => if p.2.1.kind = .start then p.2.1.cue else none := by
  induction l with
  | nil => rfl
  | cons p rest ih =>
    have hhead : p.2.1.startedCue = (if p.2.1.kind = .start then p.2.1.cue else none).toList := by
      unfold QueueEntry.startedCue
      cases p.2.1.kind <;> cases p.2.1.cue <;> rfl
    rw [List.flatMap_cons, ih, hhead, List.filterMap_cons]
    cases (if p.2.1.kind = .start then p.2.1.cue else none) <;> rfl

/-- R105, R106: the records of a frame after its queue walk, which placed the STARTs of `started`. -/
theorem marked_stepCountdowns (refresh : Nat) (started : List CueId) (records : List AirRecord) :
    ((stepCountdowns records).map fun r => if r.cue ∈ started then r.placed refresh else r)
      = records.map fun r => if r.cue ∈ started then { r with aired := true, countdown := refresh }
        else { r with countdown := r.countdown - 1 } := by
  unfold stepCountdowns
  rw [List.map_map]
  refine List.map_congr_left fun r _ => ?_
  by_cases h : r.cue ∈ started
  · exact (if_pos h).trans (if_pos h).symm
  · exact (if_neg h).trans (if_neg h).symm

/-- R98, R105 to R107: the frame of auditorium `a` over the narration sections, and its Builder after it. -/
structure Auditorium.Builds (a : Auditorium) (narration queued refreshed : List AirSection) (b' : Builder) : Prop where
  walk : ∃ n, n ≤ (readyFrom (sectionOfEntry a a.clock.record.showTime) a.builder.queue 0).length ∧
    let ready := readyFrom (sectionOfEntry a a.clock.record.showTime) a.builder.queue 0
    let placed := ready.take n
    let left := keptFrom (placed.map Prod.fst) a.builder.queue 0
    let started := placed.filterMap fun p => if p.2.1.kind = .start then p.2.1.cue else none
    let last := (a.builder.records.map fun r =>
        if r.cue ∈ started then { r with aired := true, countdown := a.unit.channels.refresh }
        else { r with countdown := r.countdown - 1 }).foldl
      (refreshStep a.unit.channels.refresh (AirRecord.refreshSection left a.seq.active a.clock.record.showTime)
        (narration ++ queued)) ([], [])
    queued = placed.map (fun p => p.2.2)
      ∧ (n < ready.length → Config.payloadLimit < payloadSize (narration ++ (ready.take (n + 1)).map fun p => p.2.2))
      ∧ refreshed = last.2
      ∧ b' = { a.builder with
          queue := left, records := last.1, sequence := a.builder.sequence + 1
          framesBuilt := a.builder.framesBuilt + 1 }

/-- R98: a frame from its queue walk `w` and its refreshes `p`. -/
theorem Builder.build_eq {b : Builder} {c : ChannelSettings} {active : Vector (List ActiveCue) 4}
    {rec : BoundaryRecord} {narration : List AirSection} {w : Walked} {p : List AirRecord × List AirSection}
    (hw : walkQueue (entrySection (stepCountdowns b.records) active rec.showTime) b.queue (payloadSize narration) = w)
    (hp : placeRefreshes c.refresh (AirRecord.refreshSection w.queue active rec.showTime)
      ((stepCountdowns b.records).map fun r => if r.cue ∈ w.started then r.placed c.refresh else r) w.used = p)
    (k : Aud) : b.build k c active rec narration
      = ({ b with
            queue := w.queue, records := p.1, sequence := b.sequence + 1, framesBuilt := b.framesBuilt + 1 },
          { auditorium := k, clockState := rec.state, sequence := b.sequence, showTime := rec.showTime
            closing := false, sections := narration ++ w.sections ++ p.2 }) := by
  subst hw hp
  rfl

theorem Builder.build_builds (k : Aud) (a : Auditorium) (narration : List AirSection) :
    ∃ queued refreshed b', a.Builds narration queued refreshed b'
      ∧ a.builder.build k a.unit.channels a.seq.active a.clock.record narration
        = (b', { auditorium := k, clockState := a.clock.record.state, sequence := a.builder.sequence
                 showTime := a.clock.record.showTime, closing := false
                 sections := narration ++ queued ++ refreshed }) := by
  have hsec : entrySection (stepCountdowns a.builder.records) a.seq.active a.clock.record.showTime
      = sectionOfEntry a a.clock.record.showTime := funext fun e => entrySection_eq _ _ rfl e
  obtain ⟨n, hn⟩ := walkQueue_places (sectionOfEntry a a.clock.record.showTime) a.builder.queue 0
    (payloadSize narration)
  have hused := (walkQueue_used (sectionOfEntry a a.clock.record.showTime) a.builder.queue (payloadSize narration)).1
  refine ⟨_, _, _, ?_, Builder.build_eq (congrArg (walkQueue · _ _) hsec) rfl k⟩
  generalize walkQueue (sectionOfEntry a a.clock.record.showTime) a.builder.queue (payloadSize narration) = w
    at hused hn
  obtain ⟨hfew, hqueue, hsections, hstarted, hfull⟩ := hn
  rw [startedCue_flatMap] at hstarted
  rw [marked_stepCountdowns, hused, ← payloadSize_append]
  refine ⟨n, hfew, ?_⟩
  intro ready placed left started last
  have hlast : last = placeRefreshes a.unit.channels.refresh
      (AirRecord.refreshSection left a.seq.active a.clock.record.showTime)
      (a.builder.records.map fun r =>
        if r.cue ∈ started then { r with aired := true, countdown := a.unit.channels.refresh }
        else { r with countdown := r.countdown - 1 }) (payloadSize (narration ++ w.sections)) := by
    refine (placeRefreshes_eq_foldl _ _ _ _ _).trans ?_
    rw [List.append_nil]
    rfl
  refine ⟨hsections, fun h => ?_, ?_, ?_⟩
  · rw [payloadSize_append]
    exact hfull h
  · rw [hlast, hqueue, hstarted]
  · rw [hlast, hqueue, hstarted]

end Sys2Proof.Machine
end

section
/-! SUPPORT. What a build point of a RUNNING show does, and what a message of the Sequencer leaves of the Builder (R79,
R98, R100 to R110). -/

namespace Sys2Proof.Machine

/-! ## The build point of a RUNNING show -/

theorem AirRecord.refreshSection_eq (queue : List QueueEntry) (active : Vector (List ActiveCue) 4) (now : Word)
    (r : AirRecord) : r.refreshSection queue active now
      = if r.countdown = 0 ∧ r.textHeld = true ∧ ∀ e ∈ queue, ¬(e.kind = .start ∧ e.cue = some r.cue) then
          sectionOfStart active[r.channel] r.channel r.cue true r.reentered now else none := by
  unfold AirRecord.refreshSection
  rw [sectionOfStart_eq]
  exact if_congr (r.due_iff queue) rfl rfl

/-- R98: an auditorium after an ordinary frame over the narration `sections`. -/
def Auditorium.framed (k : Aud) (sections : List AirSection) (a : Auditorium) : Auditorium :=
  let r := a.builder.build k a.unit.channels a.seq.active a.clock.record sections
  { a with builder := r.1, link := a.link.handoff r.2 }

section BuildPoint
variable {s : State} {k : Aud}

theorem State.buildOrdinary_eq (s : State) (k : Aud) (sections : List AirSection) :
    s.buildOrdinary k sections = s.modAud k fun a => a.framed k sections := by
  unfold State.buildOrdinary State.handOn
  simp only [State.modBuilder_def, State.modLink_def, State.modAud_modAud]
  exact State.modAud_congr rfl

/-- The state after the frame's mix and reports, before its prefetch. -/
def State.mixedFor (s : State) (k : Aud) : State :=
  (s.reportAll k ((s.aud k).mixer.frameReports (s.aud k).unit.channels.narration (s.aud k).clock.record)).modAud k
    fun a => a.mixed ((s.aud k).mixer.afterFrame (s.aud k).unit.channels.narration (s.aud k).clock.record)

theorem State.mixedFor_aud (s : State) (k : Aud) : (s.mixedFor k).aud k
    = { s.aud k with
        buildDue := false
        mixer := (s.aud k).mixer.afterFrame (s.aud k).unit.channels.narration (s.aud k).clock.record
        writer := ((s.reportAll k ((s.aud k).mixer.frameReports (s.aud k).unit.channels.narration
          (s.aud k).clock.record)).aud k).writer } := by
  unfold State.mixedFor
  rw [State.aud_modAud_same, State.reportAll_aud]
  rfl

theorem State.onlyAud_mixedFor (s : State) (k : Aud) : State.OnlyAud k s (s.mixedFor k) :=
  (s.onlyAud_reportAll k _).trans (State.onlyAud_modAud _ k _)

theorem State.buildPoint_running (hdue : (s.aud k).buildDue = true) (hrunning : s.partState = .running)
    (hshow : (s.aud k).unit.showState = .running) : exec (.buildPoint k) s
      = .next (((s.mixedFor k).prefetchAll k).modAud k fun a => a.framed k
          ((s.aud k).mixer.voices (s.aud k).unit.channels.narration (s.aud k).clock.record)) := by
  refine congrArg Host.Outcome.next ((if_pos hdue).trans ?_)
  unfold State.takeBuildPoint
  rw [if_pos hrunning, hshow, s.mixFrame_eq k]
  exact State.buildOrdinary_eq _ _ _

theorem State.mixedPrefetched_aud (s : State) (k : Aud) : ((s.mixedFor k).prefetchAll k).aud k
    = { s.aud k with
        buildDue := false, mixer := (((s.mixedFor k).prefetchAll k).aud k).mixer
        writer := (((s.mixedFor k).prefetchAll k).aud k).writer } :=
  ((s.mixedFor k).prefetches_prefetchAll k).aud.trans (congrArg (fun a : Auditorium => { a with
    mixer := (((s.mixedFor k).prefetchAll k).aud k).mixer
    writer := (((s.mixedFor k).prefetchAll k).aud k).writer }) (s.mixedFor_aud k))

end BuildPoint

/-! ## Messages of the Sequencer (R100 to R104, R109, R110) -/

section Messages
variable (s : State) (k : Aud)

theorem State.builderTakes_iff : s.builderTakes k = true
    ↔ s.partState = .running ∧ ((s.aud k).unit.showState = .halted ∨ (s.aud k).unit.showState = .running) := by
  unfold State.builderTakes
  simp

/-- A Builder that takes requests does with one what `f` says; any other leaves it. -/
theorem State.askBuilder_leaves {f : Builder → Builder} {b' : Builder} (h : f (s.aud k).builder = b') :
    (s.partState = .running ∧ ((s.aud k).unit.showState = .halted ∨ (s.aud k).unit.showState = .running) →
      s.askBuilder k f = s.setAud k { s.aud k with builder := b' })
    ∧ (¬(s.partState = .running
        ∧ ((s.aud k).unit.showState = .halted ∨ (s.aud k).unit.showState = .running)) → s.askBuilder k f = s) := by
  subst h
  unfold State.askBuilder
  exact ⟨fun htakes => if_pos ((s.builderTakes_iff k).mpr htakes),
    fun htakes => if_neg (mt (s.builderTakes_iff k).mp htakes)⟩

theorem State.signalBuilder_hears (hrunning : s.partState = .running) (hshow : (s.aud k).unit.showState ≠ .dark) :
    s.signalBuilder k = s.setAud k { s.aud k with builder := (s.aud k).builder.signal } := by
  unfold State.signalBuilder State.builderHears
  rw [if_pos (by simp [hrunning, hshow])]
  rfl

end Messages

/-! ## What a Builder makes of a request -/

theorem Builder.join_records (b : Builder) (e : QueueEntry) : (b.join e).records = b.records := by
  unfold Builder.join
  split <;> rfl

theorem Builder.join_lateCues (b : Builder) (e : QueueEntry) : (b.join e).lateCues = b.lateCues := by
  unfold Builder.join
  split <;> rfl

section Requests
variable (b : Builder) (copies : Nat) (c : Channel) (cue : CueId)

theorem QueueEntry.isStartOf_eq : QueueEntry.isStartOf cue
    = fun e => Decidable.decide (e.kind = .start ∧ e.cue = some cue) := by
  funext e
  unfold QueueEntry.isStartOf
  rw [Bool.decide_and, beq_eq_decide, beq_eq_decide]

theorem Builder.startRequest_queued (reentered held : Bool) (h : b.queue.any (·.isStartOf cue) = true) :
    b.startRequest copies c cue reentered held = b := if_pos h

theorem Builder.startRequest_new (reentered held : Bool) (h : b.queue.any (·.isStartOf cue) = false) :
    b.startRequest copies c cue reentered held
      = Builder.join { b with records := b.records ++
          [{ cue := cue, channel := c, reentered := reentered, textHeld := held, aired := false, countdown := 0 }] }
        { kind := .start, channel := c, cue := some cue, copies := copies + 1, waiting := !held } :=
  if_neg (by rw [h]; exact Bool.false_ne_true)

theorem Builder.any_record_iff : b.records.any (·.cue == cue) = true ↔ ∃ r ∈ b.records, r.cue = cue := by
  simp

theorem Builder.textReady_none (h : ∀ r ∈ b.records, r.cue ≠ cue) : b.textReady cue = b :=
  if_neg fun hany => by
    obtain ⟨r, hr, hcue⟩ := (b.any_record_iff cue).mp hany
    exact h r hr hcue

theorem Builder.textReady_some (h : ∃ r ∈ b.records, r.cue = cue) : b.textReady cue = { b with
    records := b.records.map fun r => if r.cue = cue then { r with textHeld := true } else r
    queue := b.queue.map fun e => if e.isStartOf cue then { e with waiting := false } else e } :=
  if_pos ((b.any_record_iff cue).mpr h)

theorem Builder.removal_none (cause : Removal) (h : ∀ r ∈ b.records, r.cue ≠ cue) :
    b.removal copies c cue cause = b := by
  have hfind : b.records.find? (·.cue == cue) = none :=
    List.find?_eq_none.mpr fun r hr => by simpa using h r hr
  unfold Builder.removal
  rw [hfind]

theorem Builder.removal_some (cause : Removal) {r : AirRecord}
    (h : b.records.find? (fun r => Decidable.decide (r.cue = cue)) = some r) :
    let b1 : Builder := { b with queue := b.queue.filter fun e => !e.isStartOf cue }
    let b2 := if r.aired = true ∧ cause ≠ .clearCue then
        b1.join { kind := .finish, channel := c, cue := some cue, copies := copies + 1, waiting := false } else b1
    b.removal copies c cue cause = { b2 with
      lateCues := b.lateCues + (if cause = .expired ∧ r.aired = false then 1 else 0)
      records := b.records.filter fun r => Decidable.decide (r.cue ≠ cue) } := by
  intro b1 b2
  have hends : (cause.endMayQueue && r.aired) = true ↔ r.aired = true ∧ cause ≠ .clearCue := by
    cases cause <;> simp [Removal.endMayQueue]
  have hlate : cause = .expired ∧ (!r.aired) = true ↔ cause = .expired ∧ r.aired = false := by
    rw [Bool.not_eq_true']
  have hrest : b2.records = b.records ∧ b2.lateCues = b.lateCues := by
    unfold b2
    split
    · exact ⟨Builder.join_records b1 _, Builder.join_lateCues b1 _⟩
    · exact ⟨rfl, rfl⟩
  have hfind : b.records.find? (·.cue == cue) = some r := h
  have hremoval : b.removal copies c cue cause
      = { (if cause = .expired ∧ (!r.aired) = true then { b2 with lateCues := b2.lateCues + 1 } else b2) with
          records := b2.records.filter fun x => !(x.cue == cue) } := by
    have hb2 : (if (cause.endMayQueue && r.aired) = true then
        b1.join { kind := .finish, channel := c, cue := some cue, copies := copies + 1, waiting := false } else b1)
        = b2 := if_congr hends rfl rfl
    unfold Builder.removal
    simp only [hfind]
    rw [hb2]
    split <;> rfl
  have hfilter : (fun x : AirRecord => !(x.cue == cue)) = fun r => Decidable.decide (r.cue ≠ cue) := by
    funext x
    rw [beq_eq_decide, decide_not]
  rw [hremoval, hrest.1, hfilter, ← hrest.2]
  by_cases h : cause = .expired ∧ r.aired = false
  · rw [if_pos (hlate.mpr h), if_pos h]
  · have hzero (w : Word) : w + 0 = w := BitVec.add_zero w
    rw [if_neg (mt hlate.mp h), if_neg h, hzero]

end Requests

/-! ## The blocks asked for -/

section Asked
variable (asked : RingName → List Word)

/-- The blocks asked for, ring by ring (log entry 32). -/
def allAsked : List (RingName × Word) := [RingName.a, .b, .bed].flatMap fun name => (asked name).map (name, ·)

theorem asksOf_allAsked (name : RingName) : asksOf (allAsked asked) name = asked name := by
  unfold allAsked
  simp only [List.flatMap_cons, List.flatMap_nil, List.append_nil, asksOf_append]
  cases name with
  | a => rw [asksOf_same, asksOf_other (by decide), asksOf_other (by decide), List.append_nil, List.append_nil]
  | b => rw [asksOf_same, asksOf_other (by decide), asksOf_other (by decide), List.append_nil, List.nil_append]
  | bed => rw [asksOf_same, asksOf_other (by decide), asksOf_other (by decide), List.nil_append, List.nil_append]

theorem mem_allAsked {name : RingName} {n : Word} (h : n ∈ asked name) : (name, n) ∈ allAsked asked := by
  refine List.mem_flatMap.mpr ⟨name, ?_, List.mem_map_of_mem h⟩
  cases name <;> decide

/-- Ring, fetch generation and number of the block that a read is of. -/
def Purpose.block : Purpose → Option (RingName × Nat × Word)
  | .blockRead name gen number => some (name, gen, number)
  | _ => none

theorem filterMap_block {made : List Access} {m : Mixer} {l : List (RingName × Word)}
    (h : made.map Access.described = l.map m.blockRead) :
    made.filterMap (fun a => a.purpose.block) = l.map fun x => (x.1, (m.ring x.1).fetchGen, x.2) := by
  have hpurpose : made.map Access.purpose = l.map fun x => .blockRead x.1 (m.ring x.1).fetchGen x.2 := by
    have := congrArg (List.map fun d : Role × Nat × Nat × List Byte × Purpose => d.2.2.2.2) h
    rw [List.map_map, List.map_map] at this
    exact this
  have hblock : made.filterMap (fun a => a.purpose.block) = (made.map Access.purpose).filterMap Purpose.block :=
    (List.filterMap_map (f := Access.purpose) (g := Purpose.block)).symm
  rw [hblock, hpurpose, List.filterMap_map]
  exact congrFun (List.filterMap_eq_map (f := fun x : RingName × Word => (x.1, (m.ring x.1).fetchGen, x.2))) l

theorem filterMap_block_reports {made : List Access} (h : ∀ a ∈ made, a.IsReport) :
    made.filterMap (fun a => a.purpose.block) = [] :=
  List.filterMap_eq_nil_iff.mpr fun a ha => by rw [(h a ha).2]; rfl

end Asked

/-! ## The statement, part by part -/

/-- A build point of a show that builds nothing. -/
theorem State.buildPoint_rests {s : State} {k : Aud} (hdue : (s.aud k).buildDue = true)
    (h : s.partState ≠ .running ∨ (s.aud k).unit.showState = .halted ∨ (s.aud k).unit.showState = .dark) :
    exec (.buildPoint k) s = .next (s.modAud k fun a => { a with buildDue := false }) := by
  refine congrArg Host.Outcome.next ((if_pos hdue).trans ?_)
  unfold State.takeBuildPoint
  by_cases hrunning : s.partState = .running
  · obtain h | h | h := h
    · exact absurd hrunning h
    · rw [if_pos hrunning, h]
    · rw [if_pos hrunning, h]
  · exact if_neg hrunning

section Prefetch
variable {s : State} {k : Aud} {asked : RingName → List Word}

theorem State.asks_mixedFor (hasked : ∀ name, asked name
      = if ((s.mixedFor k).aud k).mixer.uses (s.aud k).unit.channels.narration name
        then (((s.mixedFor k).aud k).mixer.ring name).ahead else [])
    (hx : ∀ name, ((s.mixedFor k).aud k).mixer.uses (s.aud k).unit.channels.narration name = true →
      ∃ x, s.binding k name.role = some x ∧ 1 ≤ (((s.mixedFor k).aud k).mixer.ring name).capacity
        ∧ (((s.mixedFor k).aud k).mixer.ring name).capacity * 512 ≤ x.limit.toNat + 1) :
    State.Asks k (s.mixedFor k) ((s.mixedFor k).prefetchAll k) (allAsked asked) := by
  have hunit : ((s.mixedFor k).aud k).unit = (s.aud k).unit := by rw [s.mixedFor_aud k]
  refine State.prefetchAll_asks (fun name => by rw [hunit]; exact hasked name) fun name hname => ?_
  rw [hunit] at hname
  obtain ⟨x, hbound, hcapacity⟩ := hx name hname
  exact ⟨x, (State.binding_congr (s.onlyAud_mixedFor k).bindings k _).trans hbound, hcapacity⟩

/-- Between `s` and the end of its prefetch: the writes of the frame's reports, then the reads of blocks. -/
theorem State.Asks.makes_all {u : State} {l : List (RingName × Word)} (h : State.Asks k (s.mixedFor k) u l) :
    ∃ reports made, State.Makes k s u (reports ++ made) ∧ (∀ a ∈ reports, a.IsReport)
      ∧ made.map Access.described = l.map ((s.mixedFor k).aud k).mixer.blockRead := by
  obtain ⟨reports, hreports, hall⟩ := s.makes_reportAll k
    ((s.aud k).mixer.frameReports (s.aud k).unit.channels.narration (s.aud k).clock.record)
  obtain ⟨made, hmade, hdescribed⟩ := h.makes
  exact ⟨reports, made, (hreports.then_modAud _).trans hmade, hall, hdescribed⟩

end Prefetch

end Sys2Proof.Machine
end

section
/-! SUPPORT. The statement of the Builder (R79, R98 to R110), part by part. -/

namespace Sys2Proof.Machine

/-! ## The frame (R98, R99, R105 to R108, R118) -/

section Frame
variable {s : State} {k : Aud}

theorem Mixer.voices_payload (m : Mixer) (mask : BitVec 2) (rec : BoundaryRecord) :
    payloadSize (m.voices mask rec) ≤ 968 := by
  have h := m.frame_payload mask rec
  rw [m.frame_eq] at h
  exact h

theorem Mixer.voices_samples (m : Mixer) (mask : BitVec 2) (rec : BoundaryRecord) :
    ((m.voices mask rec).map fun x => match x with
      | .narration v _ samples => some (v, samples.length) | _ => none)
      = ([false, true].filter fun v => mask.getLsbD v.toNat).map fun v => some (v, 240) := by
  unfold Mixer.voices
  rw [List.map_map]
  refine List.map_congr_left fun v _ => ?_
  exact congrArg (fun n => some (v, n)) (m.voice_length mask rec v)

/-- The part of the statement on the refreshes is that of `refreshStep`. -/
theorem refreshStep_eq (refresh : Nat) (left : List QueueEntry) (active : Vector (List ActiveCue) 4) (now : Word)
    (base : List AirSection) :
    refreshStep refresh (AirRecord.refreshSection left active now) base = fun acc r =>
      let due := r.countdown = 0 ∧ r.textHeld = true ∧ ∀ e ∈ left, ¬(e.kind = .start ∧ e.cue = some r.cue)
      match if due then sectionOfStart active[r.channel] r.channel r.cue true r.reentered now else none with
      | some x =>
        if payloadSize (base ++ acc.2) + x.size ≤ 1536 then
          (acc.1 ++ [{ r with aired := true, countdown := refresh }], acc.2 ++ [x])
        else (acc.1 ++ [r], acc.2)
      | none => (acc.1 ++ [r], acc.2) := by
  funext acc r
  unfold refreshStep
  rw [AirRecord.refreshSection_eq]
  rfl

end Frame

/-- Settles O20. -/
theorem builderQueuesRequestsAndBuildsFrames : Obligations.BuilderQueuesRequestsAndBuildsFrames := by
  unfold Obligations.BuilderQueuesRequestsAndBuildsFrames
  refine ⟨fun k s hdue => ⟨fun h => ?_, fun hrunning hshow => ?_⟩, ?_, ?_⟩
  · exact ⟨_, s.buildPoint_rests hdue h, s.onlyAud_modAud k _, rfl, s.aud_modAud_same k _⟩
  · let a := s.aud k
    let narration := a.mixer.voices a.unit.channels.narration a.clock.record
    obtain ⟨queued, refreshed, b', hbuilds, hbuild⟩ := Builder.build_builds k a narration
    let p := (s.mixedFor k).prefetchAll k
    let f : AirFrame := { auditorium := k, clockState := a.clock.record.state, sequence := a.builder.sequence
                          showTime := a.clock.record.showTime, closing := false
                          sections := narration ++ queued ++ refreshed }
    have hframed : (p.modAud k fun a => a.framed k narration).aud k = { s.aud k with
        buildDue := false, mixer := (p.aud k).mixer, writer := (p.aud k).writer
        builder := b', link := a.link.handoff f } := by
      rw [State.aud_modAud_same, s.mixedPrefetched_aud k]
      exact congrArg (fun r : Builder × AirFrame => { s.aud k with
        buildDue := false, mixer := (p.aud k).mixer, writer := (p.aud k).writer
        builder := r.1, link := a.link.handoff r.2 }) hbuild
    have hfits : f.Fits k := by
      have h := a.builder.build_fits k a.unit.channels a.seq.active a.clock.record
        (a.mixer.voices_payload a.unit.channels.narration a.clock.record)
      rw [show a.builder.build k a.unit.channels a.seq.active a.clock.record narration = _ from hbuild] at h
      exact h
    refine ⟨_, f, narration, queued, refreshed, State.buildPoint_running hdue hrunning hshow, ?_, ?_⟩
    · exact ((s.onlyAud_mixedFor k).trans (State.prefetches_prefetchAll _ k).only).trans (State.onlyAud_modAud _ k _)
    rw [show ((p.modAud k fun a => a.framed k narration).aud k) = _ from hframed]
    refine ⟨rfl, rfl, rfl, rfl, rfl, rfl, rfl, rfl, rfl, hfits.2, rfl, fun hnone => ?_, fun hsome => ?_, rfl, ?_⟩
    · have hlink : a.link.handoff f = a.link.fly f := Link.handoff_idle hnone f
      exact ⟨(congrArg Link.frame hlink :), (congrArg Link.state hlink :), (congrArg Link.retry hlink :)⟩
    · have hlink := Link.handoff_busy (l := a.link) hsome f
      exact ⟨(congrArg Link.next hlink :), (congrArg Link.frame hlink :), (congrArg Link.dropped hlink :)⟩
    · intro a b now enabled ready
      refine ⟨Mixer.voices_samples _ _ _, fun hlocked hflywheel => ?_, ?_⟩
      · exact a.mixer.voices_silent _ _ fun v => by
          rw [a.mixer.voice_muted _ (a.clock.record.plays_eq_false hlocked hflywheel)]
      · obtain ⟨n, hfew, hwalk⟩ := hbuilds.walk
        refine ⟨n, hfew, ?_⟩
        intro placed left started records last
        obtain ⟨hqueued, hfull, hrefreshed, hb'⟩ := hwalk
        rw [refreshStep_eq] at hrefreshed hb'
        exact ⟨hqueued, hfull, hrefreshed, hb'⟩
  · intro k s hdue hrunning hshow old mask m asked
    let p := (s.mixedFor k).prefetchAll k
    have hmixed : ((s.mixedFor k).aud k).mixer = m := by rw [s.mixedFor_aud k]
    have hframed (f : Auditorium → Auditorium) (h : ∀ a, (f a).mixer = a.mixer ∧ (f a).writer = a.writer) :
        ((p.modAud k f).aud k).mixer = (p.aud k).mixer ∧ ((p.modAud k f).aud k).writer = (p.aud k).writer := by
      rw [State.aud_modAud_same]
      exact h _
    obtain ⟨hmixer, hwriter⟩ := hframed (fun a => a.framed k
      ((s.aud k).mixer.voices (s.aud k).unit.channels.narration (s.aud k).clock.record)) fun a => ⟨rfl, rfl⟩
    refine ⟨_, State.buildPoint_running hdue hrunning hshow, ?_, fun hx => ?_⟩
    · rw [hmixer, ← hmixed]
      exact ((s.mixedFor k).prefetches_prefetchAll k).rest
    · have hasks : State.Asks k (s.mixedFor k) p (allAsked asked) :=
        State.asks_mixedFor (fun name => by rw [hmixed]) (by rw [hmixed]; exact hx)
      obtain ⟨reports, made, hmakes, hreports, hmade⟩ := hasks.makes_all
      rw [hmixed] at hmade
      refine ⟨?_, fun name => ?_, ?_, fun name n hn => ?_⟩
      · have hprefetched : (p.aud k).writer = ((s.mixedFor k).aud k).writer := (congrArg Auditorium.writer hasks.aud :)
        rw [hwriter, hprefetched, s.mixedFor_aud k]
      · rw [hmixer, hasks.ring, hmixed, asksOf_allAsked]
        rfl
      · have hblocks : (p.inFlight.drop s.inFlight.length).filterMap (fun a => a.purpose.block)
            = (allAsked asked).map fun x => (x.1, (m.ring x.1).fetchGen, x.2) := by
          rw [hmakes.inFlight, List.drop_left, List.filterMap_append, filterMap_block_reports hreports,
            filterMap_block hmade, List.nil_append]
        rw [allAsked, List.map_flatMap] at hblocks
        simp only [List.map_map] at hblocks
        exact hblocks
      · have hmem : m.blockRead (name, n) ∈ made.map Access.described := by
          rw [hmade]
          exact List.mem_map_of_mem (mem_allAsked asked hn)
        obtain ⟨x, hx, hdescribed⟩ := List.mem_map.mp hmem
        have hissued := (hmakes.then_modAud (j := k) fun a => a.framed k
          ((s.aud k).mixer.voices (s.aud k).unit.channels.narration (s.aud k).clock.record)).issued
          (List.mem_append_right _ hx)
        have hrole : x.role = name.role := (congrArg Prod.fst hdescribed :)
        have hoffset : x.offset = n.toNat % (m.ring name).capacity * 512 := (congrArg (fun d => d.2.1) hdescribed :)
        have hlength : x.length = 512 := (congrArg (fun d => d.2.2.1) hdescribed :)
        have hdata : x.data = [] := (congrArg (fun d => d.2.2.2.1) hdescribed :)
        have hpurpose : x.purpose = .blockRead name (m.ring name).fetchGen n :=
          (congrArg (fun d => d.2.2.2.2) hdescribed :)
        rw [hrole, hoffset, hlength, hdata, hpurpose] at hissued
        exact hissued
  · intro k c cue reentered held cause s b copies takes isStart joined leaves
    have hstart : QueueEntry.isStartOf cue = isStart := QueueEntry.isStartOf_eq cue
    refine ⟨fun h => ?_, fun h => ?_, fun h => ⟨?_, ?_⟩, fun h => ?_, fun r h => ?_, ?_, fun hrunning hshow => ?_⟩
    · exact s.askBuilder_leaves k (Builder.startRequest_queued _ _ _ _ _ _ ((congrArg b.queue.any hstart).trans h))
    · exact s.askBuilder_leaves k (Builder.startRequest_new _ _ _ _ _ _ ((congrArg b.queue.any hstart).trans h))
    · exact s.askBuilder_leaves k (Builder.textReady_none _ _ h)
    · exact s.askBuilder_leaves k (Builder.removal_none _ _ _ _ _ h)
    · have htext := Builder.textReady_some b cue h
      rw [hstart] at htext
      exact s.askBuilder_leaves k htext
    · have hremoval := Builder.removal_some b (s.aud k).unit.channels.copies c cue cause h
      rw [hstart] at hremoval
      exact s.askBuilder_leaves k hremoval
    · have hends : (fun e : QueueEntry => !(e.kind == .finish && e.channel == c))
          = fun e => Decidable.decide ¬(e.kind = .finish ∧ e.channel = c) := by
        funext e
        rw [decide_not, Bool.decide_and, beq_eq_decide, beq_eq_decide]
      refine s.askBuilder_leaves k ?_
      unfold Builder.clearRequest
      rw [hends]
      rfl
    · exact s.signalBuilder_hears k hrunning hshow

end Sys2Proof.Machine
end

section
/-! SUPPORT. The sizes of the Builder (R97, R100 to R107), and its air records against the screens (R101). -/

namespace Sys2Proof.Machine

/-! ## Sizes (R97, R100, R101) -/

/-- Sizes of an Air Builder, its air records' number aside. -/
structure Builder.Sized (b : Builder) : Prop where
  queue : b.queue.length ≤ 32
  copies : ∀ e ∈ b.queue, 1 ≤ e.copies ∧ e.copies ≤ 4
  countdown : ∀ r ∈ b.records, r.countdown ≤ 250
  closing : b.closing ≤ 4
  starts : ((b.queue.filter fun e => e.kind == .start).map fun e => e.cue).Nodup

theorem Builder.Bounded.sized {b : Builder} (h : b.Bounded) : b.Sized :=
  ⟨h.queue, h.copies, h.countdown, h.closing, h.starts⟩

theorem Builder.Sized.bounded {b : Builder} (h : b.Sized) (hrecords : b.records.length ≤ 16) : b.Bounded :=
  ⟨h.queue, hrecords, h.copies, h.countdown, h.closing, h.starts⟩

/-- Kind and cue of a queue entry. -/
def QueueEntry.named (e : QueueEntry) : QueueKind × Option CueId := (e.kind, e.cue)

theorem starts_eq (q : List QueueEntry) : (q.filter fun e => e.kind == .start).map (fun e => e.cue)
    = (q.map QueueEntry.named).filterMap fun x => if x.1 = .start then some x.2 else none := by
  rw [List.filterMap_map, ← List.filterMap_eq_map, List.filterMap_filter]
  refine List.filterMap_congr fun e _ => ?_
  cases hkind : e.kind <;> simp [QueueEntry.named, hkind]

section Sized
variable {b b' : Builder} (h : b.Sized)
include h

/-- A queue with no entries but those of the queue before it, in their order. -/
theorem Builder.Sized.of_named (hqueue : (b'.queue.map QueueEntry.named).Sublist (b.queue.map QueueEntry.named))
    (hcopies : ∀ e ∈ b'.queue, 1 ≤ e.copies ∧ e.copies ≤ 4) (hcountdown : ∀ r ∈ b'.records, r.countdown ≤ 250)
    (hclosing : b'.closing ≤ 4) : b'.Sized where
  queue := by
    have := hqueue.length_le
    rw [List.length_map, List.length_map] at this
    exact Nat.le_trans this h.queue
  copies := hcopies
  countdown := hcountdown
  closing := hclosing
  starts := by
    have hstarts := h.starts
    rw [starts_eq] at hstarts ⊢
    exact hstarts.sublist (hqueue.filterMap _)

theorem Builder.Sized.of_sublist (hqueue : b'.queue.Sublist b.queue) (hcountdown : ∀ r ∈ b'.records, r.countdown ≤ 250)
    (hclosing : b'.closing ≤ 4) : b'.Sized :=
  h.of_named (hqueue.map _) (fun e he => h.copies e (hqueue.mem he)) hcountdown hclosing

theorem Builder.Sized.join {e : QueueEntry} (hcopies : 1 ≤ e.copies ∧ e.copies ≤ 4)
    (hnew : ∀ x ∈ b.queue, x.kind = .start → e.kind = .start → x.cue ≠ e.cue) : (b.join e).Sized := by
  unfold Builder.join
  split
  · next hroom =>
    have hroom : b.queue.length < 32 := hroom
    refine ⟨?_, fun x hx => ?_, h.countdown, h.closing, ?_⟩
    · rw [List.length_append, List.length_singleton]
      exact hroom
    · obtain hx | hx := List.mem_append.mp hx
      · exact h.copies x hx
      · rw [List.mem_singleton.mp hx]
        exact hcopies
    · rw [List.filter_append, List.map_append]
      refine h.starts.append ?_ ?_
      · exact ((List.nodup_singleton _).sublist (List.filter_sublist.map _) : ((List.filter _ [e]).map _).Nodup)
      · intro c hc hce
        obtain ⟨x, hx, rfl⟩ := List.mem_map.mp hc
        obtain ⟨y, hy, hyx⟩ := List.mem_map.mp hce
        obtain ⟨hx, hxs⟩ := List.mem_filter.mp hx
        obtain ⟨hy, hys⟩ := List.mem_filter.mp hy
        obtain rfl := List.mem_singleton.mp hy
        exact hnew x hx (beq_iff_eq.mp hxs) (beq_iff_eq.mp hys) hyx.symm
  · exact ⟨h.queue, h.copies, h.countdown, h.closing, h.starts⟩

section Requests
variable {n : Nat} (hn : n ≤ 3)
include hn

theorem Builder.Sized.startRequest (c : Channel) (cue : CueId) (reentered held : Bool) :
    (b.startRequest n c cue reentered held).Sized := by
  cases hany : b.queue.any (·.isStartOf cue) with
  | true => rw [Builder.startRequest_queued _ _ _ _ _ _ hany]; exact h
  | false =>
    rw [Builder.startRequest_new _ _ _ _ _ _ hany]
    have hmore : Builder.Sized { b with records := b.records ++
        [{ cue := cue, channel := c, reentered := reentered, textHeld := held, aired := false, countdown := 0 }] } := by
      refine ⟨h.queue, h.copies, fun r hr => ?_, h.closing, h.starts⟩
      obtain hr | hr := List.mem_append.mp hr
      · exact h.countdown r hr
      · rw [List.mem_singleton.mp hr]
        exact Nat.zero_le _
    refine hmore.join (e := { kind := .start, channel := c, cue := some cue, copies := n + 1, waiting := !held })
      ⟨Nat.le_add_left 1 n, Nat.succ_le_succ hn⟩ fun x hx hstart _ hcue => ?_
    · have hmem := List.any_eq_false.mp hany x hx
      rw [QueueEntry.isStartOf_eq] at hmem
      exact hmem (decide_eq_true ⟨hstart, hcue⟩)

omit hn in
theorem Builder.Sized.textReady (cue : CueId) : (b.textReady cue).Sized := by
  by_cases hrecord : ∃ r ∈ b.records, r.cue = cue
  · rw [Builder.textReady_some _ _ hrecord]
    have hwaiting (e : QueueEntry) : (if e.isStartOf cue then { e with waiting := false } else e).copies = e.copies
        ∧ (if e.isStartOf cue then { e with waiting := false } else e).named = e.named := by split <;> exact ⟨rfl, rfl⟩
    refine h.of_named ?_ (fun e he => ?_) (fun r hr => ?_) h.closing
    · rw [List.map_map]
      exact (List.map_congr_left (f := QueueEntry.named ∘ _) fun e _ => (hwaiting e).2) ▸ List.Sublist.refl _
    · obtain ⟨x, hx, rfl⟩ := List.mem_map.mp he
      rw [(hwaiting x).1]
      exact h.copies x hx
    · obtain ⟨x, hx, rfl⟩ := List.mem_map.mp hr
      split <;> exact h.countdown x hx
  · rw [Builder.textReady_none _ _ fun r hr hcue => hrecord ⟨r, hr, hcue⟩]
    exact h

theorem Builder.Sized.removal (c : Channel) (cue : CueId) (cause : Removal) : (b.removal n c cue cause).Sized := by
  cases hfind : b.records.find? (fun r => Decidable.decide (r.cue = cue)) with
  | none =>
    rw [Builder.removal_none _ _ _ _ _ fun r hr => by simpa using List.find?_eq_none.mp hfind r hr]
    exact h
  | some r =>
    rw [Builder.removal_some _ _ _ _ _ hfind]
    have hless : Builder.Sized { b with queue := b.queue.filter fun e => !e.isStartOf cue } :=
      h.of_sublist List.filter_sublist h.countdown h.closing
    have hjoined : Builder.Sized (if r.aired = true ∧ cause ≠ .clearCue then
        Builder.join { b with queue := b.queue.filter fun e => !e.isStartOf cue }
          { kind := .finish, channel := c, cue := some cue, copies := n + 1, waiting := false }
        else { b with queue := b.queue.filter fun e => !e.isStartOf cue }) := by
      split
      · exact hless.join (e := { kind := .finish, channel := c, cue := some cue, copies := n + 1, waiting := false })
          ⟨Nat.le_add_left 1 n, Nat.succ_le_succ hn⟩ fun _ _ _ hkind => nomatch hkind
      · exact hless
    exact ⟨hjoined.queue, hjoined.copies, fun x hx => h.countdown x (List.mem_of_mem_filter hx), hjoined.closing,
      hjoined.starts⟩

theorem Builder.Sized.clearRequest (c : Channel) : (b.clearRequest n c).Sized :=
  have hless : Builder.Sized { b with queue := b.queue.filter fun e => !(e.kind == .finish && e.channel == c) } :=
    h.of_sublist List.filter_sublist h.countdown h.closing
  hless.join (e := { kind := .clear, channel := c, cue := none, copies := n + 1, waiting := false })
    ⟨Nat.le_add_left 1 n, Nat.succ_le_succ hn⟩ fun _ _ _ hkind => nomatch hkind

theorem Builder.Sized.heed (o : SeqOut) : (b.heed n o).Sized := by
  cases o with
  | start c cue reentered held => exact h.startRequest hn c cue reentered held
  | remove c cue cause => exact h.removal hn c cue cause
  | clear c => exact h.clearRequest hn c
  | textReady cue => exact h.textReady cue
  | _ => exact h

end Requests

theorem Builder.Sized.heedAll {n : Nat} (hn : n ≤ 3) (l : List SeqOut) : (b.heedAll n l).Sized := by
  induction l generalizing b with
  | nil => exact h
  | cons o rest ih => exact ih (h.heed hn o)

theorem Builder.Sized.signal : b.signal.Sized := h.of_sublist List.filter_sublist h.countdown h.closing

end Sized

/-! ## A frame (R105 to R107, R113) -/

theorem QueueEntry.mem_aired {e x : QueueEntry} (h : x ∈ e.aired) :
    x.named = e.named ∧ 1 ≤ x.copies ∧ x.copies ≤ e.copies := by
  unfold QueueEntry.aired at h
  split at h
  · exact nomatch h
  · rw [List.mem_singleton.mp h]
    exact ⟨rfl, by simp only; omega, Nat.sub_le _ _⟩

theorem QueueEntry.aired_named (e : QueueEntry) : (e.aired.map QueueEntry.named).Sublist [e.named] := by
  unfold QueueEntry.aired
  split
  · exact List.nil_sublist _
  · exact List.Sublist.refl _

/-- R105: the walk leaves no entries but those of the queue, with no more copies. -/
theorem walkQueue_queue (sec : QueueEntry → Option AirSection) (q : List QueueEntry) (used : Nat) :
    ((walkQueue sec q used).queue.map QueueEntry.named).Sublist (q.map QueueEntry.named)
      ∧ ((∀ e ∈ q, 1 ≤ e.copies ∧ e.copies ≤ 4) → ∀ e ∈ (walkQueue sec q used).queue, 1 ≤ e.copies ∧ e.copies ≤ 4) := by
  induction q generalizing used with
  | nil => exact ⟨.refl _, fun h => h⟩
  | cons e rest ih =>
    unfold walkQueue
    split
    · obtain ⟨hnamed, hcopies⟩ := ih used
      exact ⟨hnamed.cons_cons _, fun h x hx => (List.mem_cons.mp hx).elim
        (fun hxe => hxe ▸ h e List.mem_cons_self) fun hx => hcopies (fun y hy => h y (List.mem_cons_of_mem _ hy)) x hx⟩
    · next x _ =>
      split
      · obtain ⟨hnamed, hcopies⟩ := ih (used + x.size)
        refine ⟨?_, fun h y hy => ?_⟩
        · rw [List.map_append]
          exact e.aired_named.append hnamed
        · obtain hy | hy := List.mem_append.mp hy
          · obtain ⟨_, hone, hle⟩ := QueueEntry.mem_aired hy
            exact ⟨hone, Nat.le_trans hle (h e List.mem_cons_self).2⟩
          · exact hcopies (fun z hz => h z (List.mem_cons_of_mem _ hz)) y hy
      · exact ⟨.refl _, fun h => h⟩

/-- Channel and cue of an air record. -/
def AirRecord.key (r : AirRecord) : Channel × CueId := (r.channel, r.cue)

/-- R107: the refreshes keep the records, with countdowns within `limit`. -/
theorem placeRefreshes_records {refresh limit : Nat} (hrefresh : refresh ≤ limit) (sec : AirRecord → Option AirSection)
    (l : List AirRecord) : ∀ used, (placeRefreshes refresh sec l used).1.map AirRecord.key = l.map AirRecord.key
      ∧ ((∀ r ∈ l, r.countdown ≤ limit) → ∀ r ∈ (placeRefreshes refresh sec l used).1, r.countdown ≤ limit) := by
  induction l with
  | nil => exact fun _ => ⟨rfl, fun h => h⟩
  | cons r rest ih =>
    intro used
    have hcons {r' : AirRecord} {l : List AirRecord} (hr : r.countdown ≤ limit → r'.countdown ≤ limit)
        (hl : (∀ r ∈ rest, r.countdown ≤ limit) → ∀ r ∈ l, r.countdown ≤ limit)
        (h : ∀ x ∈ r :: rest, x.countdown ≤ limit) : ∀ x ∈ r' :: l, x.countdown ≤ limit := fun x hx =>
      (List.mem_cons.mp hx).elim (fun hxr => hxr ▸ hr (h r List.mem_cons_self))
        fun hx => hl (fun y hy => h y (List.mem_cons_of_mem _ hy)) x hx
    unfold placeRefreshes
    split
    · next x _ =>
      obtain ⟨hkeys, hcountdown⟩ := ih (used + x.size)
      exact ⟨congrArg (r.key :: ·) hkeys, hcons (fun _ => hrefresh) hcountdown⟩
    · obtain ⟨hkeys, hcountdown⟩ := ih used
      exact ⟨congrArg (r.key :: ·) hkeys, hcons id hcountdown⟩

/-- Channel and cue of each air record. -/
def Builder.keys (b : Builder) : List (Channel × CueId) := b.records.map AirRecord.key

section Frames
variable {b : Builder} (k : Aud) (c : ChannelSettings)

/-- R98: a frame keeps the air records, and the Builder within its sizes. -/
theorem Builder.build_keeps (hc : c.Within) (active : Vector (List ActiveCue) 4) (rec : BoundaryRecord)
    (narration : List AirSection) : (b.build k c active rec narration).1.keys = b.keys
      ∧ (b.Sized → (b.build k c active rec narration).1.Sized) := by
  rw [Builder.build_eq rfl rfl k]
  obtain ⟨hnamed, hcopies⟩ := walkQueue_queue (entrySection (stepCountdowns b.records) active rec.showTime) b.queue
    (payloadSize narration)
  generalize walkQueue (entrySection (stepCountdowns b.records) active rec.showTime) b.queue (payloadSize narration) = w
    at hnamed hcopies
  rw [marked_stepCountdowns]
  obtain ⟨hkeys, hcountdown⟩ := placeRefreshes_records hc.refresh.2
    (AirRecord.refreshSection w.queue active rec.showTime)
    (b.records.map fun r => if r.cue ∈ w.started then { r with aired := true, countdown := c.refresh }
      else { r with countdown := r.countdown - 1 }) w.used
  refine ⟨hkeys.trans ?_, fun h => h.of_named hnamed (hcopies h.copies) (hcountdown fun r hr => ?_) h.closing⟩
  · rw [List.map_map]
    refine List.map_congr_left fun r _ => ?_
    simp only [Function.comp_apply]
    split <;> rfl
  · obtain ⟨x, hx, rfl⟩ := List.mem_map.mp hr
    split
    · exact hc.refresh.2
    · exact Nat.le_trans (Nat.sub_le _ _) (h.countdown x hx)

theorem Builder.Sized.buildClosing (h : b.Sized) (rec : BoundaryRecord) (narration : List AirSection) :
    (b.buildClosing k c rec narration).1.Sized :=
  ⟨h.queue, h.copies, h.countdown, Nat.le_trans (Nat.sub_le _ _) h.closing, h.starts⟩

end Frames

end Sys2Proof.Machine
end

section
/-! SUPPORT. The air records against the screens, message by message (R101 to R104). -/

namespace Sys2Proof.Machine

/-! ## What a message does to the air records -/

/-- The cue of which a message is the removal. -/
def SeqOut.removed : SeqOut → Option CueId
  | .remove _ cue _ => some cue
  | _ => none

/-- The message is a START request. -/
def SeqOut.starts : SeqOut → Bool
  | .start _ _ _ _ => true
  | _ => false

section Keys
variable (b : Builder) (n : Nat) (c : Channel) (cue : CueId)

theorem Builder.join_keys (e : QueueEntry) : (b.join e).keys = b.keys := by
  unfold Builder.keys
  rw [Builder.join_records]

theorem Builder.startRequest_keys (reentered held : Bool) :
    (b.startRequest n c cue reentered held).keys = b.keys
      ∨ (b.startRequest n c cue reentered held).keys = b.keys ++ [(c, cue)] := by
  cases hany : b.queue.any (·.isStartOf cue) with
  | true => exact .inl (by rw [Builder.startRequest_queued _ _ _ _ _ _ hany])
  | false =>
    rw [Builder.startRequest_new _ _ _ _ _ _ hany, Builder.join_keys]
    exact .inr List.map_append

theorem Builder.textReady_keys : (b.textReady cue).keys = b.keys := by
  by_cases hrecord : ∃ r ∈ b.records, r.cue = cue
  · rw [Builder.textReady_some _ _ hrecord]
    unfold Builder.keys
    rw [List.map_map]
    refine List.map_congr_left fun r _ => ?_
    simp only [Function.comp_apply]
    split <;> rfl
  · rw [Builder.textReady_none _ _ fun r hr hcue => hrecord ⟨r, hr, hcue⟩]

theorem Builder.removal_keys (cause : Removal) :
    (b.removal n c cue cause).keys = b.keys.filter fun x => Decidable.decide (x.2 ≠ cue) := by
  unfold Builder.keys
  rw [List.filter_map]
  cases hfind : b.records.find? (fun r => Decidable.decide (r.cue = cue)) with
  | none =>
    have hnone : ∀ r ∈ b.records, r.cue ≠ cue := fun r hr => by simpa using List.find?_eq_none.mp hfind r hr
    have hself : b.records.filter ((fun x => Decidable.decide (x.2 ≠ cue)) ∘ AirRecord.key) = b.records :=
      List.filter_eq_self.mpr fun r hr => decide_eq_true (hnone r hr)
    rw [Builder.removal_none _ _ _ _ _ hnone, hself]
  | some r =>
    rw [Builder.removal_some _ _ _ _ _ hfind]
    rfl

/-- A message that is no START request takes from the air records that of the cue it removes. -/
theorem Builder.heed_keys {o : SeqOut} (h : o.starts = false) :
    (b.heed n o).keys = b.keys.filter fun x => Decidable.decide (o.removed ≠ some x.2) := by
  have hall {o : SeqOut} (hnone : o.removed = none) :
      b.keys.filter (fun x => Decidable.decide (o.removed ≠ some x.2)) = b.keys :=
    List.filter_eq_self.mpr fun x _ => decide_eq_true (by rw [hnone]; exact fun h => nomatch h)
  cases o with
  | start => exact nomatch h
  | remove c cue cause =>
    refine (b.removal_keys n c cue cause).trans (List.filter_congr fun x _ => ?_)
    rw [decide_eq_decide]
    exact not_congr ⟨fun h => congrArg some h.symm, fun h => (Option.some.inj h).symm⟩
  | clear c => exact (Builder.join_keys _ _).trans (hall rfl).symm
  | textReady cue => exact (b.textReady_keys cue).trans (hall rfl).symm
  | report => exact (hall rfl).symm
  | readEntry => exact (hall rfl).symm
  | readScan => exact (hall rfl).symm
  | readLookback => exact (hall rfl).symm
  | readText => exact (hall rfl).symm

theorem Builder.heedAll_keys {l : List SeqOut} (h : ∀ o ∈ l, o.starts = false) : (b.heedAll n l).keys
    = b.keys.filter fun x => Decidable.decide (x.2 ∉ l.filterMap SeqOut.removed) := by
  induction l generalizing b with
  | nil => exact (List.filter_eq_self.mpr fun _ _ => decide_eq_true List.not_mem_nil).symm
  | cons o rest ih =>
    rw [Builder.heedAll_cons, ih _ fun x hx => h x (List.mem_cons_of_mem _ hx),
      b.heed_keys n (h o List.mem_cons_self), List.filter_filter]
    refine List.filter_congr fun x _ => ?_
    rw [Bool.eq_iff_iff, Bool.and_eq_true, decide_eq_true_iff, decide_eq_true_iff, decide_eq_true_iff]
    cases hremoved : o.removed with
    | none => simp [List.filterMap_cons_none hremoved]
    | some cue =>
      rw [List.filterMap_cons_some hremoved, List.mem_cons, not_or, and_comm]
      exact and_congr_left' (not_congr ⟨fun g => (Option.some.inj g).symm, fun g => congrArg some g.symm⟩)

end Keys

/-! ## The air records and the screens (R101) -/

/-- The cues on the screen of channel `c`. -/
def shown (active : Vector (List ActiveCue) 4) (c : Channel) : List CueId := active[c].map ActiveCue.cue

/-- The air records are of cues on the screens, one for a cue. -/
structure Builder.Airs (active : Vector (List ActiveCue) 4) (b : Builder) : Prop where
  distinct : (b.keys.map Prod.snd).Nodup
  onScreen : ∀ x ∈ b.keys, x.2 ∈ shown active x.1

/-- The messages `outs` of a Sequencer whose screens change from `active` to `active'` keep the air records to the
screens. -/
def Serves (active : Vector (List ActiveCue) 4) (outs : List SeqOut) (active' : Vector (List ActiveCue) 4) : Prop :=
  ∀ n b, Builder.Airs active b → (b.heedAll n outs).Airs active'

section Serves
variable {a a' a'' : Vector (List ActiveCue) 4} {l m : List SeqOut}

theorem Serves.trans (h : Serves a l a') (g : Serves a' m a'') : Serves a (l ++ m) a'' := fun n b hb => by
  rw [Builder.heedAll_append]
  exact g n _ (h n b hb)

/-- Messages without a START serve screens from which only the cues they remove are gone. -/
theorem serves_of_removed (hstarts : ∀ o ∈ l, o.starts = false)
    (h : ∀ c, ∀ cue ∈ shown a c, cue ∈ l.filterMap SeqOut.removed ∨ cue ∈ shown a' c) : Serves a l a' :=
  fun n b hb => by
  have hkeys := b.heedAll_keys n hstarts
  refine ⟨?_, fun x hx => ?_⟩
  · rw [hkeys]
    exact hb.distinct.sublist (List.filter_sublist.map _)
  · rw [hkeys] at hx
    obtain ⟨hx, hkept⟩ := List.mem_filter.mp hx
    exact (h x.1 x.2 (hb.onScreen x hx)).resolve_left (of_decide_eq_true hkept)

theorem serves_refl (hstarts : ∀ o ∈ l, o.starts = false) : Serves a l a :=
  serves_of_removed hstarts fun _ _ h => .inr h

theorem serves_nil : Serves a [] a := serves_refl fun _ h => nomatch h

/-- A START request serves screens on which its cue is new. -/
theorem serves_start {c : Channel} {cue : CueId} (reentered held : Bool) (hnew : ∀ d, cue ∉ shown a d)
    (hkeeps : ∀ d, ∀ x ∈ shown a d, x ∈ shown a' d) (hon : cue ∈ shown a' c) :
    Serves a [.start c cue reentered held] a' := fun n b hb => by
  have hkept : b.Airs a' := ⟨hb.distinct, fun x hx => hkeeps _ _ (hb.onScreen x hx)⟩
  obtain hkeys | hkeys := b.startRequest_keys n c cue reentered held
  · exact ⟨hkeys ▸ hkept.distinct, fun x hx => hkept.onScreen x (hkeys ▸ hx)⟩
  · have hheeded : (b.heedAll n [.start c cue reentered held]).keys = b.keys ++ [(c, cue)] := hkeys
    refine ⟨?_, fun x hx => ?_⟩
    · rw [hheeded, List.map_append]
      refine List.nodup_append.mpr ⟨hb.distinct, List.nodup_singleton _, fun x hx y hy hxy => ?_⟩
      obtain ⟨z, hz, rfl⟩ := List.mem_map.mp hx
      have hy : y = cue := List.mem_singleton.mp hy
      refine hnew z.1 ?_
      rw [← hy, ← hxy]
      exact hb.onScreen z hz
    · rw [hheeded] at hx
      obtain hx | hx := List.mem_append.mp hx
      · exact hkept.onScreen x hx
      · rw [List.mem_singleton.mp hx]
        exact hon

end Serves

/-! ## The records' number (R101) -/

/-- At most four cues a channel bound the air records (R51, R101). -/
theorem Builder.Airs.few {active : Vector (List ActiveCue) 4} {b : Builder} (h : b.Airs active)
    (hfour : ∀ c : Channel, active[c].length ≤ 4) : b.records.length ≤ 16 := by
  have hnodup : b.keys.Nodup := h.distinct.of_map _
  have hsub : b.keys ⊆ channelList.flatMap fun c => (shown active c).map fun cue => (c, cue) := fun x hx =>
    List.mem_flatMap.mpr ⟨x.1, mem_channelList x.1, List.mem_map.mpr ⟨x.2, h.onScreen x hx, rfl⟩⟩
  have hlength := (hnodup.subperm hsub).length_le
  have hscreen (c : Channel) : ((shown active c).map fun cue => (c, cue)).length ≤ 4 := by
    rw [List.length_map, shown, List.length_map]
    exact hfour c
  have h0 := hscreen 0
  have h1 := hscreen 1
  have h2 := hscreen 2
  have h3 := hscreen 3
  have hkeys : b.keys.length = b.records.length := List.length_map _
  simp only [channelList, List.flatMap_cons, List.flatMap_nil, List.length_append, List.length_nil] at hlength
  omega

end Sys2Proof.Machine
end

section
/-! SUPPORT. What a Cue Sequencer keeps, whatever its show (R41, R51, R63 to R71): its sizes, its window at its cursor,
its screens below the cursor and its seek within the list. -/

namespace Sys2Proof.Machine

/-! ## What is kept -/

/-- The screens of a Sequencer whose cursor is at `cursor` (R51). -/
structure ScreensFit (active : Vector (List ActiveCue) 4) (cursor : Nat) : Prop where
  four : ∀ c : Channel, active[c].length ≤ 4
  distinct : ∀ c, (shown active c).Nodup
  below : ∀ c, ∀ cue ∈ shown active c, cue.index < cursor

/-- A seek context of a Sequencer with this cursor and list count (R63, R68 to R70). -/
structure Seek.Fits (cursor listCount : Nat) (sk : Seek) : Prop where
  four : ∀ c, (channelCandidates c sk.candidates).length ≤ 4
  unlooked : sk.lookback = none → sk.candidates = []
  distinct : ∀ items, sk.lookback = some items →
    (sk.candidates.map Candidate.index ++ items.map SeekItem.index).Nodup
  scan : sk.direction = .forward → cursor + sk.batch.length ≤ listCount
  looking : ∀ items, sk.lookback = some items → sk.phase = .reentry ∧ (∀ x ∈ items, x.index < cursor)
    ∧ ∀ x ∈ sk.candidates, x.index < cursor

/-- What a Cue Sequencer keeps in every show. -/
structure Sequencer.Fine (q : Sequencer) : Prop where
  listCount : q.listCount ≤ 65535
  sixteen : q.window.length ≤ 16
  run : q.window.map Slot.index = List.range' q.cursor q.window.length
  within : q.cursor + q.window.length ≤ q.listCount
  screens : ScreensFit q.active q.cursor
  dark : q.state ≠ .walking → ∀ c : Channel, q.active[c] = []
  seek : ∀ sk, q.seek = some sk → q.state = .seeking ∧ q.window = [] ∧ sk.Fits q.cursor q.listCount

theorem drop_range_eq (cursor n : Nat) : (List.range (cursor + n)).drop cursor = List.range' cursor n := by
  rw [List.range_eq_range', List.drop_range']
  congr 1 <;> omega

theorem Auditorium.fine {a : Auditorium} (hbounded : a.seq.Bounded) (hfollows : a.Follows) (hcarries : a.Carries) :
    a.seq.Fine where
  listCount := hbounded.listCount
  sixteen := hbounded.window
  run := by rw [← drop_range_eq]; exact hfollows.window
  within := hfollows.cursor
  screens :=
    { four := hbounded.active
      distinct := hcarries.distinct
      below := fun c cue hcue => by
        obtain ⟨y, hy, rfl⟩ := List.mem_map.mp hcue
        exact hcarries.below c y hy }
  dark := hcarries.walking
  seek := fun sk hsk => ⟨hbounded.seeking sk hsk, hfollows.seeking sk hsk,
    { four := hbounded.candidates sk hsk
      unlooked := hbounded.unlooked sk hsk
      distinct := fun items => hbounded.distinct sk items hsk
      scan := hfollows.scan sk hsk
      looking := fun items => hcarries.looking sk items hsk }⟩

/-! ## Screens -/

theorem shown_dark {active : Vector (List ActiveCue) 4} {c : Channel} (h : active[c] = []) : shown active c = [] := by
  unfold shown
  rw [h]
  rfl

theorem ScreensFit.dark {active : Vector (List ActiveCue) 4} (h : ∀ c : Channel, active[c] = []) (cursor : Nat) :
    ScreensFit active cursor where
  four := fun c => by rw [h c]; exact Nat.zero_le _
  distinct := fun c => by rw [shown_dark (h c)]; exact List.nodup_nil
  below := fun c cue hcue => by rw [shown_dark (h c)] at hcue; exact nomatch hcue

theorem ScreensFit.of_sublist {active active' : Vector (List ActiveCue) 4} {cursor : Nat} (h : ScreensFit active cursor)
    (hsub : ∀ c, (shown active' c).Sublist (shown active c)) : ScreensFit active' cursor where
  four := fun c => by
    have hlength := (hsub c).length_le
    unfold shown at hlength
    rw [List.length_map, List.length_map] at hlength
    exact Nat.le_trans hlength (h.four c)
  distinct := fun c => (h.distinct c).sublist (hsub c)
  below := fun c cue hcue => h.below c cue ((hsub c).mem hcue)

theorem ScreensFit.mono {active : Vector (List ActiveCue) 4} {cursor cursor' : Nat} (h : ScreensFit active cursor)
    (hle : cursor ≤ cursor') : ScreensFit active cursor' :=
  ⟨h.four, h.distinct, fun c cue hcue => Nat.lt_of_lt_of_le (h.below c cue hcue) hle⟩

theorem serves_dark {active active' : Vector (List ActiveCue) 4} (h : ∀ c : Channel, active[c] = []) {l : List SeqOut}
    (hstarts : ∀ o ∈ l, o.starts = false) : Serves active l active' :=
  serves_of_removed hstarts fun c cue hcue => by rw [shown_dark (h c)] at hcue; exact nomatch hcue

theorem screenRequests_starts (mask : BitVec 4) (active : Vector (List ActiveCue) 4) :
    ∀ o ∈ screenRequests mask active, o.starts = false := by
  intro o ho
  obtain ⟨c, _, ho⟩ := List.mem_flatMap.mp ho
  obtain h | h := List.mem_append.mp ho
  · obtain ⟨a, _, rfl⟩ := List.mem_map.mp h
    rfl
  · split at h
    · rw [List.mem_singleton.mp h]; rfl
    · exact nomatch h

/-- R59: every cue of the screens is removed. -/
theorem screenRequests_removed (mask : BitVec 4) (active : Vector (List ActiveCue) 4) {c : Channel} {cue : CueId}
    (h : cue ∈ shown active c) : cue ∈ (screenRequests mask active).filterMap SeqOut.removed := by
  obtain ⟨y, hy, rfl⟩ := List.mem_map.mp h
  exact List.mem_filterMap.mpr ⟨.remove c y.cue .screenClear, List.mem_flatMap.mpr ⟨c, mem_channelList c,
    List.mem_append_left _ (List.mem_map_of_mem hy)⟩, rfl⟩

/-- R59: the requests of emptied screens, and messages without a START, serve any screens. -/
theorem serves_screenRequests (mask : BitVec 4) (active active' : Vector (List ActiveCue) 4) {l : List SeqOut}
    (hstarts : ∀ o ∈ l, o.starts = false) : Serves active (screenRequests mask active ++ l) active' :=
  serves_of_removed (fun o ho => (List.mem_append.mp ho).elim (screenRequests_starts mask active o) (hstarts o))
    fun c cue hcue => .inl (by
      rw [List.filterMap_append]
      exact List.mem_append_left _ (screenRequests_removed mask active hcue))

/-! ## Fine Sequencers -/

section Fine
variable {q q' : Sequencer}

/-- A Sequencer with the same list, cursor, staged cues and seek, and no other cues on screen. -/
theorem Sequencer.Fine.of_screens (h : q.Fine) (hlist : q'.listCount = q.listCount) (hcursor : q'.cursor = q.cursor)
    (hwindow : q'.window.map Slot.index = q.window.map Slot.index) (hstate : q'.state = q.state)
    (hseek : q'.seek = q.seek) (hactive : ∀ c, (shown q'.active c).Sublist (shown q.active c)) : q'.Fine := by
  have hlength : q'.window.length = q.window.length := by
    have := congrArg List.length hwindow
    rwa [List.length_map, List.length_map] at this
  refine ⟨by rw [hlist]; exact h.listCount, by rw [hlength]; exact h.sixteen, ?_, ?_, ?_, fun hs c => ?_,
    fun sk hsk => ?_⟩
  · rw [hwindow, hlength, hcursor]
    exact h.run
  · rw [hcursor, hlength, hlist]
    exact h.within
  · rw [hcursor]
    exact h.screens.of_sublist hactive
  · have hnone := hactive c
    rw [shown_dark (h.dark (hstate ▸ hs) c)] at hnone
    exact List.map_eq_nil_iff.mp (List.sublist_nil.mp hnone)
  · obtain ⟨hseeking, hnil, hfits⟩ := h.seek sk (hseek ▸ hsk)
    rw [hnil] at hlength
    exact ⟨hstate.trans hseeking, List.length_eq_zero_iff.mp hlength, by rw [hcursor, hlist]; exact hfits⟩

/-- A Sequencer that has lost window, screens and seek. -/
theorem Sequencer.fine_of_empty (hlist : q.listCount ≤ 65535) (hcursor : q.cursor ≤ q.listCount)
    (hwindow : q.window = []) (hseek : q.seek = none) (hactive : ∀ c : Channel, q.active[c] = []) : q.Fine where
  listCount := hlist
  sixteen := by rw [hwindow]; exact Nat.zero_le _
  run := by rw [hwindow]; rfl
  within := by rw [hwindow]; exact hcursor
  screens := .dark hactive _
  dark := fun _ => hactive
  seek := fun sk hsk => by rw [hseek] at hsk; exact nomatch hsk

/-- A Sequencer that can hold a seek. -/
structure Sequencer.Seeks (q : Sequencer) : Prop where
  listCount : q.listCount ≤ 65535
  cursor : q.cursor ≤ q.listCount
  state : q.state = .seeking
  window : q.window = []
  active : ∀ c : Channel, q.active[c] = []

theorem Sequencer.Fine.seeks (h : q.Fine) {sk : Seek} (hsk : q.seek = some sk) : q.Seeks := by
  obtain ⟨hstate, hwindow, _⟩ := h.seek sk hsk
  exact ⟨h.listCount, Nat.le_trans (Nat.le_add_right _ _) h.within, hstate, hwindow,
    h.dark (by rw [hstate]; exact fun h => nomatch h)⟩

theorem Sequencer.Seeks.fine (h : q.Seeks) {sk : Seek} (hsk : q.seek = some sk) (hfits : sk.Fits q.cursor q.listCount) :
    q.Fine where
  listCount := h.listCount
  sixteen := by rw [h.window]; exact Nat.zero_le _
  run := by rw [h.window]; rfl
  within := by rw [h.window]; exact h.cursor
  screens := .dark h.active _
  dark := fun _ => h.active
  seek := fun sk' hsk' => by
    rw [hsk] at hsk'
    cases hsk'
    exact ⟨h.state, h.window, hfits⟩

/-! ## A Sequencer's work -/

/-- The work `r` of the Sequencer `q` leaves it fine, and what it sends serves its screens. -/
structure Sequencer.Goes (q : Sequencer) (r : Sequencer × List SeqOut) : Prop where
  fine : r.1.Fine
  serves : Serves q.active r.2 r.1.active

theorem Sequencer.Fine.stays (h : q.Fine) : q.Goes (q, []) := ⟨h, serves_nil⟩

theorem Sequencer.Goes.then {r r' : Sequencer × List SeqOut} (h : q.Goes r) (g : r.1.Goes r') :
    q.Goes (r'.1, r.2 ++ r'.2) := ⟨g.fine, h.serves.trans g.serves⟩

/-- Work that leaves the screens, and sends no START. -/
theorem Sequencer.Fine.goes (h : q'.Fine) {l : List SeqOut} (hactive : q'.active = q.active)
    (hstarts : ∀ o ∈ l, o.starts = false) : q.Goes (q', l) :=
  ⟨h, by rw [hactive]; exact serves_refl hstarts⟩

/-! ### Clear orders, faults, entries and texts (R44 to R48, R59) -/

variable (env : SeqEnv)

theorem Sequencer.Fine.emptied (h : q.Fine) (st : SeqState) :
    ({ q.dropReads with active := noActive, state := st } : Sequencer).Fine :=
  Sequencer.fine_of_empty h.listCount (Nat.le_trans (Nat.le_add_right _ _) h.within) rfl rfl noActive_channel

theorem Sequencer.Fine.clearOrder (h : q.Fine) : q.Goes (q.clearOrder env) := by
  unfold Sequencer.clearOrder
  split
  · refine ⟨h.emptied .idle, ?_⟩
    have := serves_screenRequests env.mask q.active noActive (l := []) fun _ h => nomatch h
    rw [List.append_nil] at this
    exact this
  · exact h.stays

theorem Sequencer.Fine.faultAt (h : q.Fine) (index : Nat) : q.Goes (q.faultAt env index) :=
  ⟨h.emptied .faulted, serves_screenRequests env.mask q.active noActive fun o ho => by
    rw [List.mem_singleton.mp ho]; rfl⟩

theorem classifyCaption_keeps (gen : Nat) (x : Slot) (e : CueEntry) :
    (classifyCaption env gen x e).slot.index = x.index
      ∧ ∀ o ∈ (classifyCaption env gen x e).outs, o.starts = false := by
  have hone {o' : SeqOut} (ho : o'.starts = false) : ∀ o ∈ [o'], o.starts = false := fun o h => by
    rw [List.mem_singleton.mp h]
    exact ho
  unfold classifyCaption
  simp only
  split
  · exact ⟨rfl, fun _ h => nomatch h⟩
  · split
    · exact ⟨rfl, fun _ h => nomatch h⟩
    · split <;> exact ⟨rfl, hone rfl⟩

/-- R44: a classification keeps the slot's index, and sends no START. -/
theorem classify_keeps (gen : Nat) (x : Slot) (e : CueEntry) :
    (classify env gen x e).slot.index = x.index ∧ ∀ o ∈ (classify env gen x e).outs, o.starts = false := by
  unfold classify
  simp only
  split
  · exact ⟨rfl, fun _ h => nomatch h⟩
  · split
    · exact ⟨rfl, fun _ h => nomatch h⟩
    · split
      · exact ⟨rfl, fun _ h => nomatch h⟩
      · exact classifyCaption_keeps env gen { x with entry := some e } e

theorem Sequencer.Fine.entryDone (h : q.Fine) (index : Nat) (e : CueEntry) : q.Goes (q.entryDone env index e) := by
  unfold Sequencer.entryDone
  split
  · exact h.stays
  · next x hx =>
    have hindex {y : Slot} (hy : y.awaits index = true) : y.index = index := by
      simp only [Slot.awaits, Bool.and_eq_true, beq_iff_eq] at hy
      exact hy.1
    refine ⟨h.of_screens rfl rfl ?_ rfl rfl fun c => .refl _, serves_refl (classify_keeps env q.seekGen x e).2⟩
    rw [List.map_map]
    refine List.map_congr_left fun y _ => ?_
    simp only [Function.comp_apply]
    split
    · next hy =>
      rw [(classify_keeps env q.seekGen x e).1, hindex (List.find?_some hx :), hindex hy]
    · rfl

/-- A change of staged slots that keeps their cues. -/
theorem Sequencer.Fine.mapWindow (h : q.Fine) {f : Slot → Slot} (hf : ∀ x, (f x).index = x.index) :
    ({ q with window := q.window.map f } : Sequencer).Fine :=
  h.of_screens rfl rfl (by rw [List.map_map]; exact List.map_congr_left fun x _ => hf x) rfl rfl fun c => .refl _

theorem shown_removeActive (active : Vector (List ActiveCue) 4) (ch c : Channel) (cue : CueId) :
    (shown (removeActive active ch cue) c).Sublist (shown active c) := by
  unfold shown
  rw [removeActive_channel]
  split
  · exact List.filter_sublist.map _
  · exact .refl _

/-- A cue leaves one screen, and its removal is sent. -/
theorem serves_removeActive (active : Vector (List ActiveCue) 4) (ch : Channel) (cue : CueId) (cause : Removal) :
    Serves active [.remove ch cue cause] (removeActive active ch cue) := by
  refine serves_of_removed (fun o ho => by rw [List.mem_singleton.mp ho]; rfl) fun c x hx => ?_
  by_cases hcue : x = cue
  · exact .inl (by rw [hcue]; exact List.mem_singleton_self cue)
  · refine .inr ?_
    obtain ⟨y, hy, rfl⟩ := List.mem_map.mp hx
    refine List.mem_map.mpr ⟨y, ?_, rfl⟩
    rw [removeActive_channel]
    split
    · exact List.mem_filter.mpr ⟨hy, decide_eq_true hcue⟩
    · exact hy

theorem Sequencer.Fine.textDone (h : q.Fine) (cue : CueId) (text : List Byte) : q.Goes (q.textDone env cue text) := by
  unfold Sequencer.textDone
  split
  · exact (h.mapWindow fun x => by split <;> rfl).goes rfl fun _ h => nomatch h
  · split
    · exact h.stays
    · have hshown (c : Channel) :
          shown (mapActive q.active fun a => if a.cue = cue then { a with text := some text } else a) c
            = shown q.active c := by
        unfold shown
        rw [mapActive_channel, List.map_map]
        refine List.map_congr_left fun a _ => ?_
        simp only [Function.comp_apply]
        split <;> rfl
      refine ⟨h.of_screens rfl rfl rfl rfl rfl fun c => (hshown c) ▸ .refl _, ?_⟩
      exact serves_of_removed (fun o ho => by rw [List.mem_singleton.mp ho]; rfl) fun c x hx =>
        .inr ((hshown c).symm ▸ hx)

theorem Sequencer.Fine.textFailed (h : q.Fine) (cue : CueId) : q.Goes (q.textFailed env cue) := by
  unfold Sequencer.textFailed
  split
  · exact (h.mapWindow fun x => by split <;> rfl).goes rfl fun _ h => nomatch h
  · split
    · exact h.stays
    · next c _ =>
      exact ⟨h.of_screens rfl rfl rfl rfl rfl fun d => shown_removeActive q.active c d cue,
        serves_removeActive q.active c cue .bad⟩

theorem Sequencer.Fine.retract (h : q.Fine) (c : Channel) (cue : CueId) :
    q.Goes ({ q with active := removeActive q.active c cue }, [.remove c cue .retracted]) :=
  ⟨h.of_screens rfl rfl rfl rfl rfl fun d => shown_removeActive q.active c d cue,
    serves_removeActive q.active c cue .retracted⟩

end Fine

end Sys2Proof.Machine
end

section
/-! SUPPORT. A seek keeps the Sequencer fine (R64 to R71). -/

namespace Sys2Proof.Machine

section Seeking
variable {q : Sequencer} {sk : Seek}

/-! ## Seats and scans (R64 to R68) -/

/-- A seek context without a lookback. -/
theorem Seek.fits_of_unlooked {cursor listCount : Nat} (hlookback : sk.lookback = none)
    (hcandidates : sk.candidates = []) (hscan : sk.direction = .forward → cursor + sk.batch.length ≤ listCount) :
    sk.Fits cursor listCount where
  four := fun c => by rw [hcandidates]; exact Nat.zero_le _
  unlooked := fun _ => hcandidates
  distinct := fun items h => by rw [hlookback] at h; exact nomatch h
  scan := hscan
  looking := fun items h => by rw [hlookback] at h; exact nomatch h

theorem Sequencer.Fine.beginSeek (h : q.Fine) (target : Word) : (q.beginSeek target).Fine := by
  have hseeks : (q.beginSeek target).Seeks :=
    ⟨h.listCount, Nat.le_trans (Nat.le_add_right _ _) h.within, rfl, rfl, noActive_channel⟩
  exact hseeks.fine rfl (Seek.fits_of_unlooked rfl rfl fun hd => nomatch hd)

theorem Sequencer.Fine.seat (h : q.Fine) (env : SeqEnv) (target : Word) : q.Goes (q.seat env target) := by
  have hdark (hstate : q.state ≠ .walking) : q.Goes (q.beginSeek target, []) :=
    ⟨h.beginSeek target, serves_dark (h.dark hstate) fun _ h => nomatch h⟩
  unfold Sequencer.seat
  split
  · refine ⟨h.beginSeek target, ?_⟩
    have := serves_screenRequests env.mask q.active noActive (l := []) fun _ h => nomatch h
    rw [List.append_nil] at this
    exact this
  · next hstate =>
    split
    · exact hdark (by rw [hstate]; exact fun h => nomatch h)
    · exact h.stays
  · next hstate => exact hdark (by rw [hstate]; exact fun h => nomatch h)
  · exact h.stays

theorem Sequencer.Seeks.moved (h : q.Seeks) {cursor : Nat} (hcursor : cursor ≤ q.listCount) :
    ({ q with cursor := cursor } : Sequencer).Seeks := ⟨h.listCount, hcursor, h.state, h.window, h.active⟩

/-- A Sequencer in SEEKING comes to hold a seek that fits. -/
theorem Sequencer.Seeks.holdsSeek (h : q.Seeks) (sk : Seek) (hfits : sk.Fits q.cursor q.listCount) {l : List SeqOut}
    (hstarts : ∀ o ∈ l, o.starts = false) : q.Goes ({ q with seek := some sk }, l) := by
  have hseeks : ({ q with seek := some sk } : Sequencer).Seeks := ⟨h.listCount, h.cursor, h.state, h.window, h.active⟩
  exact (hseeks.fine rfl hfits).goes rfl hstarts

/-- A Sequencer in SEEKING comes to hold a seek without a lookback, and sends no START. -/
theorem Sequencer.Seeks.holdsScan (h : q.Seeks) (sk : Seek) (hlookback : sk.lookback = none)
    (hcandidates : sk.candidates = []) (hscan : sk.direction = .forward → q.cursor + sk.batch.length ≤ q.listCount)
    {l : List SeqOut} (hstarts : ∀ o ∈ l, o.starts = false) : q.Goes ({ q with seek := some sk }, l) :=
  h.holdsSeek sk (Seek.fits_of_unlooked hlookback hcandidates hscan) hstarts

/-- What is so after the cursor has moved, on screens that are dark. -/
theorem Sequencer.Goes.moved {cursor : Nat} {r : Sequencer × List SeqOut}
    (h : ({ q with cursor := cursor } : Sequencer).Goes r) : q.Goes r := ⟨h.fine, h.serves⟩

theorem Sequencer.Seeks.lower (h : q.Seeks) : ({ q with cursor := q.cursor - 1 } : Sequencer).Seeks :=
  h.moved (Nat.le_trans (Nat.sub_le _ _) h.cursor)

section Scan
variable (h : q.Seeks) (hlookback : sk.lookback = none) (hcandidates : sk.candidates = [])
include h hlookback hcandidates

theorem Sequencer.Seeks.endScan : q.Goes (q.endScan sk) :=
  h.holdsScan { sk with phase := .reentry, batch := [] } hlookback hcandidates (fun _ => h.cursor) fun _ h => nomatch h

theorem Sequencer.Seeks.issueScan {run : List Nat}
    (hrun : sk.direction = .forward → q.cursor + run.length ≤ q.listCount) : q.Goes (q.issueScan sk run) := by
  refine h.holdsScan { sk with batch := run.map seekItem } hlookback hcandidates (fun hd => ?_) fun o ho => ?_
  · rw [List.length_map]
    exact hrun hd
  · obtain ⟨i, _, rfl⟩ := List.mem_map.mp ho
    rfl

theorem Sequencer.Seeks.nextForward (n : Nat) : q.Goes (q.nextForward sk n) := by
  unfold Sequencer.nextForward
  split
  · exact h.endScan (sk := { sk with direction := .forward }) hlookback hcandidates
  · refine h.issueScan (sk := { sk with direction := .forward }) hlookback hcandidates fun _ => ?_
    have := h.cursor
    unfold Sequencer.forwardRun
    rw [List.length_drop, List.length_range]
    omega

theorem Sequencer.Seeks.nextBackward (n : Nat) : q.Goes (q.nextBackward sk n) := by
  unfold Sequencer.nextBackward
  split
  · exact h.endScan (sk := { sk with direction := .backward }) hlookback hcandidates
  · exact h.issueScan (sk := { sk with direction := .backward }) hlookback hcandidates fun hd => nomatch hd

theorem Sequencer.Seeks.examineProbe (e : CueEntry) : q.Goes (q.examineProbe sk e) := by
  unfold Sequencer.examineProbe
  split
  · exact (h.lower.nextBackward hlookback hcandidates 255).moved
  · exact h.nextForward hlookback hcandidates 255

theorem Sequencer.Seeks.examineForward (l : List SeekItem) (hin : q.cursor + l.length ≤ q.listCount) :
    q.Goes (Sequencer.examineForward sk l q) := by
  induction l generalizing q with
  | nil => exact h.holdsScan { sk with batch := [] } hlookback hcandidates (fun _ => h.cursor) fun _ h => nomatch h
  | cons x rest ih =>
    have hlower : q.cursor + 1 ≤ q.listCount := by rw [List.length_cons] at hin; omega
    unfold Sequencer.examineForward
    split
    · exact h.holdsScan { sk with batch := x :: rest } hlookback hcandidates (fun _ => hin) fun _ h => nomatch h
    · split
      · simp only
        split
        · exact ((h.moved hlower).endScan hlookback hcandidates).moved
        · refine (ih (h.moved hlower) ?_).moved
          rw [List.length_cons] at hin
          simp only
          omega
      · exact h.endScan hlookback hcandidates

theorem Sequencer.Seeks.examineBackward (l : List SeekItem) (hbackward : sk.direction ≠ .forward) :
    q.Goes (Sequencer.examineBackward sk l q) := by
  have hscan {p : Prop} (hd : sk.direction = .forward) : p := absurd hd hbackward
  induction l generalizing q with
  | nil => exact h.holdsScan { sk with batch := [] } hlookback hcandidates hscan fun _ h => nomatch h
  | cons x rest ih =>
    unfold Sequencer.examineBackward
    split
    · exact h.holdsScan { sk with batch := x :: rest } hlookback hcandidates hscan fun _ h => nomatch h
    · split
      · simp only
        split
        · exact (h.lower.endScan hlookback hcandidates).moved
        · exact (ih h.lower).moved
      · exact h.endScan hlookback hcandidates

theorem Sequencer.Seeks.examineScan (hscan : sk.direction = .forward → q.cursor + sk.batch.length ≤ q.listCount) :
    q.Goes (q.examineScan sk) := by
  unfold Sequencer.examineScan
  split
  · next hd => exact h.examineForward hlookback hcandidates sk.batch (hscan hd)
  · next hd => exact h.examineBackward hlookback hcandidates sk.batch (by rw [hd]; exact fun h => nomatch h)
  · split
    · exact h.examineProbe hlookback hcandidates _
    · exact h.holdsScan sk hlookback hcandidates hscan fun _ h => nomatch h

theorem Sequencer.Seeks.scanUpdate (hq : q.Fine) : q.Goes (q.scanUpdate sk) := by
  unfold Sequencer.scanUpdate
  split
  · split
    · exact h.nextForward hlookback hcandidates 256
    · exact h.nextBackward hlookback hcandidates 256
    · next hd =>
      split
      · exact h.nextForward hlookback hcandidates 256
      · exact h.issueScan hlookback hcandidates fun hf => by rw [hd] at hf; exact nomatch hf
  · exact hq.stays

end Scan

/-- In the phase SCAN no lookback is issued and no candidate chosen. -/
theorem Seek.Fits.scanning {cursor listCount : Nat} (h : sk.Fits cursor listCount) (hphase : sk.phase = .scan) :
    sk.lookback = none ∧ sk.candidates = [] := by
  have hlookback : sk.lookback = none := by
    cases hl : sk.lookback with
    | none => rfl
    | some items =>
      have := (h.looking items hl).1
      rw [hphase] at this
      exact nomatch this
  exact ⟨hlookback, h.unlooked hlookback⟩

theorem holdItem_index (index : Nat) (e : CueEntry) (items : List SeekItem) :
    (holdItem index e items).map SeekItem.index = items.map SeekItem.index := by
  unfold holdItem
  rw [List.map_map]
  refine List.map_congr_left fun x _ => ?_
  simp only [Function.comp_apply]
  split <;> rfl

theorem holdItem_length (index : Nat) (e : CueEntry) (items : List SeekItem) :
    (holdItem index e items).length = items.length := List.length_map _

theorem Sequencer.Fine.scanDone (h : q.Fine) (index : Nat) (e : CueEntry) : q.Goes (q.scanDone index e) := by
  unfold Sequencer.scanDone
  split
  · exact h.stays
  · next sk hsk =>
    obtain ⟨_, _, hfits⟩ := h.seek sk hsk
    split
    · next hphase =>
      obtain ⟨hlookback, hcandidates⟩ := hfits.scanning hphase
      exact (h.seeks hsk).examineScan (sk := { sk with batch := holdItem index e sk.batch }) hlookback hcandidates
        fun hd => by rw [holdItem_length]; exact hfits.scan hd
    · exact h.stays

end Seeking

end Sys2Proof.Machine
end

section
/-! SUPPORT. Re-entry and the walk keep the Sequencer fine (R43, R53 to R58, R69 to R71). -/

namespace Sys2Proof.Machine

/-! ## The refill (R43) -/

section Refill
variable {q : Sequencer}

theorem Sequencer.missing_eq (hin : q.cursor + q.window.length ≤ q.listCount) (hsixteen : q.window.length ≤ 16) :
    ∃ n, q.missing = List.range' (q.cursor + q.window.length) n ∧ q.cursor + q.window.length + n ≤ q.listCount
      ∧ q.window.length + n ≤ 16 := by
  refine ⟨min (q.cursor + 16) q.listCount - (q.cursor + q.window.length), ?_, by omega, by omega⟩
  unfold Sequencer.missing
  rw [← drop_range_eq]
  congr 2
  omega

theorem Sequencer.Fine.refill (h : q.Fine) (hseek : q.seek = none) : q.Goes q.refill := by
  obtain ⟨n, hmissing, hlist, hsixteen⟩ := Sequencer.missing_eq h.within h.sixteen
  have hlength : (q.window ++ q.missing.map newSlot).length = q.window.length + n := by
    rw [List.length_append, List.length_map, hmissing, List.length_range']
  refine Sequencer.Fine.goes (q' := q.refill.1) ⟨h.listCount, ?_, ?_, ?_, h.screens, h.dark, fun sk hsk => ?_⟩ rfl
    fun o ho => ?_
  · exact Nat.le_trans (Nat.le_of_eq hlength) hsixteen
  · have hnew : (q.missing.map newSlot).map Slot.index = q.missing := by
      rw [List.map_map]
      exact List.map_id _
    have hrun : (q.window ++ q.missing.map newSlot).map Slot.index
        = List.range' q.cursor (q.window ++ q.missing.map newSlot).length := by
      rw [List.map_append, hnew, hlength, h.run, hmissing, List.range'_append_1]
    exact hrun
  · have : q.cursor + (q.window ++ q.missing.map newSlot).length ≤ q.listCount := by omega
    exact this
  · have hsk : q.seek = some sk := hsk
    rw [hseek] at hsk
    exact nomatch hsk
  · obtain ⟨i, _, rfl⟩ := List.mem_map.mp ho
    rfl

end Refill

/-! ## The placing of candidates (R71) -/

section Placing
variable (env : SeqEnv)

theorem shown_set_same (active : Vector (List ActiveCue) 4) (c : Channel) (l : List ActiveCue) :
    shown (active.set c l) c = l.map ActiveCue.cue := by
  unfold shown
  simp only [Fin.getElem_fin, Vector.getElem_set_self]

theorem shown_set_ne (active : Vector (List ActiveCue) 4) {c d : Channel} (h : d ≠ c) (l : List ActiveCue) :
    shown (active.set c l) d = shown active d := by
  have : c.val ≠ d.val := fun g => h (Fin.ext g.symm)
  unfold shown
  simp only [Fin.getElem_fin, Vector.getElem_set_ne _ _ this]

/-- A cue whose index no cue on screen has comes onto a screen. -/
theorem serves_comes {active active' : Vector (List ActiveCue) 4} {c : Channel} {y : ActiveCue}
    (hnew : ∀ d, ∀ cue ∈ shown active d, cue.index ≠ y.cue.index)
    (hset : active' = active.set c (active[c] ++ [y])) (reentered held : Bool) :
    Serves active [.start c y.cue reentered held] active' := by
  have hsame : shown active' c = shown active c ++ [y.cue] := by
    rw [hset, shown_set_same, List.map_append]
    rfl
  refine serves_start reentered held (fun d hd => hnew d _ hd rfl) (fun d x hx => ?_) ?_
  · by_cases hd : d = c
    · rw [hd] at hx ⊢
      rw [hsame]
      exact List.mem_append_left _ hx
    · rw [hset, shown_set_ne active hd]
      exact hx
  · rw [hsame]
    exact List.mem_append_right _ (List.mem_singleton_self _)

theorem serves_placeCandidates (gen : Nat) (l : List Candidate) : ∀ active : Vector (List ActiveCue) 4,
    (l.map Candidate.index).Nodup → (∀ x ∈ l, ∀ d, ∀ cue ∈ shown active d, cue.index ≠ x.index) →
      Serves active (l.flatMap (candidateOuts env gen)) (placeCandidates env l active) := by
  induction l with
  | nil => exact fun active _ _ => serves_nil
  | cons x rest ih =>
    intro active hnodup hnew
    obtain ⟨hx, hrest⟩ := List.nodup_cons.mp hnodup
    have hcomes := serves_comes (active := active) (c := x.channel) (y := candidateCue env x)
      (hnew x List.mem_cons_self) rfl true (x.textLength == 0)
    have htext : ∀ o ∈ (if x.textLength = 0 then [] else
        [SeqOut.readText gen { epoch := env.epoch, index := x.index } x.payloadOffset.toNat x.textLength]),
        o.starts = false := by
      intro o ho
      split at ho
      · exact nomatch ho
      · rw [List.mem_singleton.mp ho]; rfl
    rw [List.flatMap_cons]
    refine (hcomes.trans (serves_refl htext)).trans (ih _ hrest fun y hy d cue hcue => ?_)
    by_cases hd : d = x.channel
    · rw [hd, shown_set_same, List.map_append] at hcue
      obtain hcue | hcue := List.mem_append.mp hcue
      · exact hnew y (List.mem_cons_of_mem _ hy) x.channel cue hcue
      · rw [List.mem_singleton.mp hcue]
        exact fun hindex => hx (List.mem_map.mpr ⟨y, hy, hindex.symm⟩)
    · rw [shown_set_ne active hd] at hcue
      exact hnew y (List.mem_cons_of_mem _ hy) d cue hcue

theorem ofChannel_length (c : Channel) (l : List Candidate) : (ofChannel c l).length = (channelCandidates c l).length :=
  (channelCandidates_perm c l).length_eq.symm

variable {q : Sequencer} {sk : Seek}

/-- R71: re-entry completes with at most four candidates a channel, of different indices below the cursor. -/
theorem Sequencer.Seeks.completeReentry (h : q.Seeks) (hfour : ∀ c, (ofChannel c sk.candidates).length ≤ 4)
    (hnodup : (sk.candidates.map Candidate.index).Nodup) (hbelow : ∀ x ∈ sk.candidates, x.index < q.cursor) :
    q.Goes (q.completeReentry env sk) := by
  obtain ⟨hperm, _⟩ := sortCandidates sk.candidates
  have hplaced : ((sk.candidates.foldr insertCandidate []).map Candidate.index).Nodup :=
    (hperm.map _).nodup_iff.mpr hnodup
  unfold Sequencer.completeReentry
  simp only
  generalize sk.candidates.foldr insertCandidate [] = placed at hperm hplaced
  have hchannel (c : Channel) : (placeCandidates env placed q.active)[c]
      = (ofChannel c placed).map (Candidate.onScreen env.epoch) := by
    rw [placeCandidates_channel, h.active c, List.nil_append]
  have hshown (c : Channel) : shown (placeCandidates env placed q.active) c
      = (ofChannel c placed).map fun x => { epoch := env.epoch, index := x.index } := by
    unfold shown
    rw [hchannel, List.map_map]
    rfl
  have hscreens : ScreensFit (placeCandidates env placed q.active) q.cursor := by
    refine ⟨fun c => ?_, fun c => ?_, fun c cue hcue => ?_⟩
    · rw [hchannel, List.length_map]
      exact Nat.le_trans (Nat.le_of_eq (hperm.filter _).length_eq) (hfour c)
    · rw [hshown]
      refine List.Nodup.of_map CueId.index ?_
      rw [List.map_map]
      exact hplaced.sublist (List.filter_sublist.map _)
    · rw [hshown] at hcue
      obtain ⟨x, hx, rfl⟩ := List.mem_map.mp hcue
      exact hbelow x (hperm.mem_iff.mp (List.mem_of_mem_filter hx))
  have hwalks : Sequencer.Fine { q with
      active := placeCandidates env placed q.active
      truncated := q.truncated + BitVec.ofNat 32 (placed.countP fun c => c.truncated)
      seek := none, state := .walking } :=
    ⟨h.listCount, by rw [h.window]; exact Nat.zero_le _, by rw [h.window]; rfl, by rw [h.window]; exact h.cursor,
      hscreens, fun hw => absurd rfl hw, fun sk hsk => nomatch hsk⟩
  have hfilled := hwalks.refill rfl
  refine ⟨hfilled.fine, ?_⟩
  refine Serves.trans (Serves.trans (serves_placeCandidates env q.seekGen placed q.active hplaced
    fun x _ d cue hcue => ?_) (serves_refl fun o ho => ?_)) hfilled.serves
  · rw [shown_dark (h.active d)] at hcue
    exact nomatch hcue
  · rw [List.mem_singleton.mp ho]; rfl

end Placing

end Sys2Proof.Machine
end

section
/-! SUPPORT. The lookback and the walk keep the Sequencer fine (R53 to R58, R69, R70). -/

namespace Sys2Proof.Machine

/-! ## The lookback (R69, R70) -/

section Lookback
variable (env : SeqEnv)

/-- R70: a newcomer joins at most three candidates of its channel. -/
theorem joinCandidates_cases (c : Candidate) (l : List Candidate) : ∃ kept, kept.Sublist l
    ∧ joinCandidates c l = kept ++ [c]
    ∧ ((ofChannel c.channel l).length ≤ 4 → (ofChannel c.channel kept).length ≤ 3) := by
  unfold joinCandidates
  cases h : channelCandidates c.channel l with
  | nil => exact ⟨l, .refl l, rfl, fun _ => by rw [channelCandidates_nil h]; exact Nat.zero_le _⟩
  | cons smallest rest =>
    obtain ⟨hleast, hlength⟩ := channelCandidates_head h
    simp only
    split
    · refine ⟨l.filter fun x => !(x == smallest), List.filter_sublist, rfl, fun _ => ?_⟩
      have hlost : ofChannel c.channel (l.filter fun x => !(x == smallest))
          = (ofChannel c.channel l).filter fun x => !(x == smallest) := List.filter_comm ..
      have hless : ((ofChannel c.channel l).filter fun x => !(x == smallest)).length < (ofChannel c.channel l).length :=
        List.length_filter_lt_length_iff_exists.mpr ⟨smallest, hleast.1, by simp⟩
      rw [hlost]
      omega
    · exact ⟨l, .refl l, rfl, fun _ => by omega⟩

/-- Four candidates at most of every channel. -/
def FewCandidates (l : List Candidate) : Prop := ∀ c, (ofChannel c l).length ≤ 4

theorem joinCandidates_indices (c : Candidate) (l : List Candidate) :
    ((joinCandidates c l).map Candidate.index).Sublist (l.map Candidate.index ++ [c.index]) := by
  obtain ⟨kept, hkept, hjoin, _⟩ := joinCandidates_cases c l
  rw [hjoin, List.map_append]
  exact (hkept.map _).append (.refl _)

theorem FewCandidates.join {l : List Candidate} (h : FewCandidates l) (c : Candidate) :
    FewCandidates (joinCandidates c l) := by
  obtain ⟨kept, hkept, hjoin, hthree⟩ := joinCandidates_cases c l
  have hthree := hthree (h c.channel)
  rw [hjoin]
  intro d
  have hsplit : ofChannel d (kept ++ [c]) = ofChannel d kept ++ ofChannel d [c] := List.filter_append ..
  rw [hsplit, List.length_append]
  by_cases hd : c.channel = d
  · have : (ofChannel d [c]).length ≤ 1 := List.length_filter_le _ [c]
    rw [hd] at hthree
    omega
  · have hnone : ofChannel d [c] = [] := List.filter_eq_nil_iff.mpr fun x hx => by
      rw [List.mem_singleton.mp hx]
      simpa using hd
    rw [hnone]
    exact Nat.le_trans (hkept.filter _).length_le (h d)

/-- What the examination of a lookback entry leaves of the seek (R70). -/
structure Seek.Examines (sk sk' : Seek) (index : Nat) (outs : List SeqOut) : Prop where
  few : FewCandidates sk.candidates → FewCandidates sk'.candidates
  indices : (sk'.candidates.map Candidate.index).Sublist (sk.candidates.map Candidate.index ++ [index])
  rest : sk'.phase = sk.phase ∧ sk'.direction = sk.direction ∧ sk'.batch = sk.batch
  starts : ∀ o ∈ outs, o.starts = false

theorem Seek.Examines.passes {sk sk' : Seek} (hcandidates : sk'.candidates = sk.candidates)
    (hrest : sk'.phase = sk.phase ∧ sk'.direction = sk.direction ∧ sk'.batch = sk.batch) (index : Nat)
    {outs : List SeqOut} (hstarts : ∀ o ∈ outs, o.starts = false) : sk.Examines sk' index outs :=
  ⟨fun h => hcandidates ▸ h, hcandidates ▸ List.sublist_append_left _ _, hrest, hstarts⟩

theorem examineLookback_examines (sk : Seek) (index : Nat) (e : CueEntry) :
    sk.Examines (examineLookback env sk index e).1 index (examineLookback env sk index e).2 := by
  have hpasses : sk.Examines sk index [] := .passes rfl ⟨rfl, rfl, rfl⟩ index fun _ h => nomatch h
  unfold examineLookback
  split
  · exact hpasses
  · split
    · split
      · exact .passes (sk := sk) (sk' := { sk with stopped := e.channelOf :: sk.stopped }) rfl ⟨rfl, rfl, rfl⟩
          index (outs := []) fun _ h => nomatch h
      · exact hpasses
    · split
      · exact hpasses
      · split
        · exact hpasses
        · split
          · exact ⟨fun h => h.join _, joinCandidates_indices _ _, ⟨rfl, rfl, rfl⟩, fun _ h => nomatch h⟩
          · refine .passes rfl ⟨rfl, rfl, rfl⟩ index fun o ho => ?_
            rw [payloadFault_eq] at ho
            obtain ⟨p, _, rfl⟩ := List.mem_map.mp ho
            rfl

/-- A lookback under way (R69): the candidates chosen and the entries left lie below the cursor, no index twice. -/
structure Seek.Looking (cursor : Nat) (sk : Seek) (items : List SeekItem) : Prop where
  few : FewCandidates sk.candidates
  distinct : (sk.candidates.map Candidate.index ++ items.map SeekItem.index).Nodup
  phase : sk.phase = .reentry
  items : ∀ x ∈ items, x.index < cursor
  candidates : ∀ x ∈ sk.candidates, x.index < cursor

theorem Seek.Looking.examined {cursor : Nat} {sk sk' : Seek} {x : SeekItem} {rest : List SeekItem} {outs : List SeqOut}
    (h : sk.Looking cursor (x :: rest)) (g : sk.Examines sk' x.index outs) : sk'.Looking cursor rest where
  few := g.few h.few
  distinct := by
    have hall := h.distinct
    rw [List.map_cons, ← List.singleton_append, ← List.append_assoc] at hall
    exact hall.sublist (g.indices.append (.refl _))
  phase := g.rest.1.trans h.phase
  items := fun y hy => h.items y (List.mem_cons_of_mem _ hy)
  candidates := fun y hy => by
    obtain hold | hnew := List.mem_append.mp (g.indices.mem (List.mem_map_of_mem hy))
    · obtain ⟨z, hz, hindex⟩ := List.mem_map.mp hold
      rw [← hindex]
      exact h.candidates z hz
    · rw [List.mem_singleton.mp hnew]
      exact h.items x List.mem_cons_self

/-- A lookback under way makes a seek that fits. -/
theorem Seek.Looking.fits {cursor listCount : Nat} {sk : Seek} {items : List SeekItem} (h : sk.Looking cursor items)
    (hscan : sk.direction = .forward → cursor + sk.batch.length ≤ listCount) :
    ({ sk with lookback := some items } : Seek).Fits cursor listCount where
  four := fun c => by rw [← ofChannel_length]; exact h.few c
  unlooked := fun hnone => nomatch hnone
  distinct := fun items' hitems => by cases hitems; exact h.distinct
  scan := hscan
  looking := fun items' hitems => by cases hitems; exact ⟨h.phase, h.items, h.candidates⟩

theorem Seek.Fits.lookingAt {cursor listCount : Nat} {sk : Seek} (h : sk.Fits cursor listCount) {items : List SeekItem}
    (hitems : sk.lookback = some items) : sk.Looking cursor items := by
  obtain ⟨hphase, hbelow, hcandidates⟩ := h.looking items hitems
  exact ⟨fun c => by rw [ofChannel_length]; exact h.four c, h.distinct items hitems, hphase, hbelow, hcandidates⟩

variable {q : Sequencer}

theorem Sequencer.Seeks.lookbackRun (h : q.Seeks) (items : List SeekItem) : ∀ sk : Seek, sk.Looking q.cursor items →
    (sk.direction = .forward → q.cursor + sk.batch.length ≤ q.listCount) → q.Goes (q.lookbackRun env items sk) := by
  induction items with
  | nil =>
    intro sk hsk _
    have hnodup := hsk.distinct
    rw [List.map_nil, List.append_nil] at hnodup
    exact h.completeReentry env (sk := { sk with lookback := some [] }) hsk.few hnodup hsk.candidates
  | cons x rest ih =>
    intro sk hsk hscan
    unfold Sequencer.lookbackRun
    split
    · exact h.holdsSeek { sk with lookback := some (x :: rest) } (hsk.fits hscan) fun _ h => nomatch h
    · next e _ =>
      have hone := examineLookback_examines env sk x.index e
      obtain ⟨_, hdirection, hbatch⟩ := hone.rest
      have hmore := ih _ (hsk.examined hone) (by rw [hdirection, hbatch]; exact hscan)
      exact ⟨hmore.fine, (serves_refl hone.starts).trans hmore.serves⟩

theorem Sequencer.Fine.lookbackDone (h : q.Fine) (index : Nat) (e : CueEntry) :
    q.Goes (q.lookbackDone env index e) := by
  unfold Sequencer.lookbackDone
  split
  · exact h.stays
  · next sk hsk =>
    obtain ⟨_, _, hfits⟩ := h.seek sk hsk
    split
    · next items _ hitems =>
      have hlooking := hfits.lookingAt hitems
      have hheld : sk.Looking q.cursor (holdItem index e items) := by
        refine ⟨hlooking.few, by rw [holdItem_index]; exact hlooking.distinct, hlooking.phase, fun x hx => ?_,
          hlooking.candidates⟩
        have hmem := List.mem_map_of_mem (f := SeekItem.index) hx
        rw [holdItem_index] at hmem
        obtain ⟨y, hy, hindex⟩ := List.mem_map.mp hmem
        rw [← hindex]
        exact hlooking.items y hy
      exact (h.seeks hsk).lookbackRun env _ sk hheld hfits.scan
    · exact h.stays
    · exact h.stays

/-! ## The seek's part of an update (R68, R69) -/

theorem Sequencer.Fine.reentryUpdate (h : q.Fine) {sk : Seek} (hsk : q.seek = some sk) (hphase : sk.phase = .reentry) :
    q.Goes (q.reentryUpdate env sk) := by
  obtain ⟨_, _, hfits⟩ := h.seek sk hsk
  unfold Sequencer.reentryUpdate
  split
  · exact h.stays
  · next hlookback =>
    have hcandidates := hfits.unlooked hlookback
    simp only
    split
    · refine (h.seeks hsk).completeReentry env ?_ ?_ ?_ <;> rw [hcandidates]
      · exact fun _ => Nat.zero_le _
      · exact List.nodup_nil
      · exact fun _ hx => nomatch hx
    · have hlooking : sk.Looking q.cursor ((q.backwardRun 64).map seekItem) := by
        refine ⟨?_, ?_, hphase, fun x hx => ?_, ?_⟩
        · rw [hcandidates]; exact fun _ => Nat.zero_le _
        · rw [hcandidates, List.map_nil, List.nil_append, map_seekItem_index]
          exact List.nodup_reverse.mpr (List.nodup_range.sublist (List.drop_sublist _ _))
        · obtain ⟨i, hi, rfl⟩ := List.mem_map.mp hx
          exact q.backwardRun_lt 64 i hi
        · rw [hcandidates]; exact fun _ hx => nomatch hx
      refine (h.seeks hsk).holdsSeek _ (hlooking.fits hfits.scan) fun o ho => ?_
      obtain ⟨i, _, rfl⟩ := List.mem_map.mp ho
      rfl

theorem Sequencer.Fine.seekUpdate (h : q.Fine) : q.Goes (q.seekUpdate env) := by
  unfold Sequencer.seekUpdate
  split
  · exact h.stays
  · next sk hsk =>
    obtain ⟨_, _, hfits⟩ := h.seek sk hsk
    have hscanned : q.Goes (if sk.phase = .scan then q.scanUpdate sk else (q, [])) := by
      split
      · next hphase =>
        obtain ⟨hlookback, hcandidates⟩ := hfits.scanning hphase
        exact (h.seeks hsk).scanUpdate hlookback hcandidates h
      · exact h.stays
    simp only
    generalize (if sk.phase = .scan then q.scanUpdate sk else (q, [])) = scanned at hscanned
    split
    · exact hscanned
    · next sk1 hsk1 =>
      split
      · next hphase => exact hscanned.then (hscanned.fine.reentryUpdate env hsk1 hphase)
      · exact hscanned

end Lookback

end Sys2Proof.Machine
end

section
/-! SUPPORT. The walk keeps the Sequencer fine (R53 to R58), and so does all its work. -/

namespace Sys2Proof.Machine

section Walk
variable {q : Sequencer} (env : SeqEnv) (now : Word)

/-! ## Expiry (R53) -/

theorem Sequencer.Fine.expire (h : q.Fine) : q.Goes (q.expire now) := by
  have hchannel (c : Channel) : (q.expire now).1.active[c] = q.active[c].filter fun a => now.toNat < a.finish.toNat :=
    (Taken.leaves_expired q now).screens c
  refine ⟨h.of_screens rfl rfl rfl rfl rfl fun c => ?_, serves_of_removed (fun o ho => ?_) fun c cue hcue => ?_⟩
  · unfold shown
    rw [hchannel]
    exact List.filter_sublist.map _
  · obtain ⟨c, _, ho⟩ := List.mem_flatMap.mp ho
    obtain ⟨a, _, rfl⟩ := List.mem_map.mp ho
    rfl
  · obtain ⟨y, hy, rfl⟩ := List.mem_map.mp hcue
    by_cases hends : now.toNat < y.finish.toNat
    · refine .inr (List.mem_map.mpr ⟨y, ?_, rfl⟩)
      rw [hchannel]
      exact List.mem_filter.mpr ⟨hy, decide_eq_true hends⟩
    · refine .inl (List.mem_filterMap.mpr ⟨.remove c y.cue .expired, ?_, rfl⟩)
      refine List.mem_flatMap.mpr ⟨c, mem_channelList c, ?_⟩
      exact List.mem_map.mpr ⟨y, List.mem_filter.mpr ⟨hy, decide_eq_true (Nat.le_of_not_lt hends)⟩, rfl⟩

/-! ## The entries taken (R54 to R56) -/

/-- A cue of index `cursor` is issued, or not: the screens keep to the cursor above it, and what is sent serves them. -/
structure Issues (cursor : Nat) (active : Vector (List ActiveCue) 4) (outs : List SeqOut)
    (active' : Vector (List ActiveCue) 4) : Prop where
  screens : ScreensFit active' (cursor + 1)
  serves : Serves active outs active'

theorem ScreensFit.passes {active : Vector (List ActiveCue) 4} {cursor : Nat} (h : ScreensFit active cursor) :
    Issues cursor active [] active := ⟨h.mono (Nat.le_succ _), serves_nil⟩

/-- R56: a cue comes onto a screen that has room. -/
theorem ScreensFit.comes {active : Vector (List ActiveCue) 4} {cursor : Nat} (h : ScreensFit active cursor)
    {c : Channel} {y : ActiveCue} (hroom : active[c].length ≤ 3) (hindex : y.cue.index = cursor)
    (reentered held : Bool) :
    Issues cursor active [.start c y.cue reentered held] (active.set c (active[c] ++ [y])) := by
  have hnew : ∀ d, ∀ cue ∈ shown active d, cue.index ≠ y.cue.index := fun d cue hcue => by
    have := h.below d cue hcue
    omega
  have hsame : shown (active.set c (active[c] ++ [y])) c = shown active c ++ [y.cue] := by
    rw [shown_set_same, List.map_append]
    rfl
  have hother {d : Channel} (hd : d ≠ c) : shown (active.set c (active[c] ++ [y])) d = shown active d :=
    shown_set_ne active hd _
  refine ⟨⟨fun d => ?_, fun d => ?_, fun d cue hcue => ?_⟩, serves_comes hnew rfl reentered held⟩
  · have hlength (a : Vector (List ActiveCue) 4) : a[d].length = (shown a d).length := (List.length_map _).symm
    rw [hlength]
    by_cases hd : d = c
    · subst hd
      rw [hsame, List.length_append, ← hlength]
      exact Nat.succ_le_succ hroom
    · rw [hother hd, ← hlength]
      exact h.four d
  · by_cases hd : d = c
    · subst hd
      rw [hsame]
      refine List.nodup_append.mpr ⟨h.distinct d, List.nodup_singleton _, fun x hx z hz hxz => ?_⟩
      exact hnew d x hx (congrArg CueId.index (hxz.trans (List.mem_singleton.mp hz)))
    · rw [hother hd]
      exact h.distinct d
  · by_cases hd : d = c
    · subst hd
      rw [hsame] at hcue
      obtain hcue | hcue := List.mem_append.mp hcue
      · exact Nat.lt_succ_of_lt (h.below d cue hcue)
      · rw [List.mem_singleton.mp hcue, hindex]
        exact Nat.lt_succ_self _
    · rw [hother hd] at hcue
      exact Nat.lt_succ_of_lt (h.below d cue hcue)

/-- Cues leave one screen, and their removals are sent. -/
theorem ScreensFit.leaves {active : Vector (List ActiveCue) 4} {cursor : Nat} (h : ScreensFit active cursor)
    (c : Channel) {l : List ActiveCue} (hsub : (l.map ActiveCue.cue).Sublist (shown active c)) {outs : List SeqOut}
    (hstarts : ∀ o ∈ outs, o.starts = false)
    (hgone : ∀ cue ∈ shown active c, cue ∈ outs.filterMap SeqOut.removed ∨ cue ∈ l.map ActiveCue.cue) :
    ScreensFit (active.set c l) cursor ∧ Serves active outs (active.set c l) := by
  have hshown (d : Channel) : (shown (active.set c l) d).Sublist (shown active d) := by
    by_cases hd : d = c
    · rw [hd, shown_set_same]
      exact hsub
    · rw [shown_set_ne active hd]
  refine ⟨h.of_sublist hshown, serves_of_removed hstarts fun d cue hcue => ?_⟩
  by_cases hd : d = c
  · rw [hd, shown_set_same]
    exact hgone cue (hd ▸ hcue)
  · rw [shown_set_ne active hd]
    exact .inr hcue

theorem Sequencer.issueCaption_issues {cursor : Nat} (h : ScreensFit q.active cursor) {x : Slot}
    (hx : x.index = cursor) (e : CueEntry) :
    Issues cursor q.active (q.issueCaption env x e).2 (q.issueCaption env x e).1.active := by
  have hcomes {active : Vector (List ActiveCue) 4} (h : ScreensFit active cursor)
      (hroom : active[e.channelOf].length ≤ 3) := h.comes (y := activeOf env x e) hroom hx false (x.state == .loaded)
  unfold Sequencer.issueCaption
  simp only
  split
  · next oldest rest hscreen =>
    split
    · next hfull =>
      obtain ⟨hscreens, hserves⟩ := h.leaves e.channelOf (l := rest)
        (outs := [.remove e.channelOf oldest.cue .displaced])
        (by unfold shown; rw [hscreen]; exact List.sublist_cons_self _ _)
        (fun o ho => by rw [List.mem_singleton.mp ho]; rfl)
        (fun cue hcue => by
          unfold shown at hcue
          rw [hscreen] at hcue
          obtain rfl | hcue := List.mem_cons.mp hcue
          · exact .inl (List.mem_singleton_self _)
          · exact .inr hcue)
      have hfour := h.four e.channelOf
      rw [hscreen, List.length_cons] at hfour
      have hrest : (q.active.set e.channelOf rest)[e.channelOf] = rest := by
        simp only [Fin.getElem_fin, Vector.getElem_set_self]
      have hset : (q.active.set e.channelOf rest).set e.channelOf (rest ++ [activeOf env x e])
          = q.active.set e.channelOf (rest ++ [activeOf env x e]) := Vector.set_set ..
      have hjoins := hcomes hscreens (by rw [hrest]; omega)
      rw [hrest, hset] at hjoins
      exact ⟨hjoins.screens, hserves.trans hjoins.serves⟩
    · next hroom =>
      have := hcomes h (by rw [hscreen, List.length_cons]; omega)
      rw [hscreen] at this
      exact this
  · next hscreen =>
    have := hcomes h (by rw [hscreen]; exact Nat.zero_le _)
    rw [hscreen] at this
    exact this

theorem Sequencer.issueClear_issues {cursor : Nat} (h : ScreensFit q.active cursor) (c : Channel) :
    Issues cursor q.active (q.issueClear c).2 (q.issueClear c).1.active := by
  obtain ⟨hscreens, hserves⟩ := h.leaves c (l := []) (outs := (q.issueClear c).2) (List.nil_sublist _)
    (fun o ho => by
      obtain ho | ho := List.mem_append.mp ho
      · obtain ⟨a, _, rfl⟩ := List.mem_map.mp ho
        rfl
      · rw [List.mem_singleton.mp ho]; rfl)
    (fun cue hcue => by
      obtain ⟨y, hy, rfl⟩ := List.mem_map.mp hcue
      refine .inl (List.mem_filterMap.mpr ⟨.remove c y.cue .clearCue, ?_, rfl⟩)
      exact List.mem_append_left _ (List.mem_map_of_mem hy))
  exact ⟨hscreens.mono (Nat.le_succ _), hserves⟩

/-- What issuing an entry leaves of the Sequencer beside its screens and counters. -/
structure Sequencer.SameStand (q q' : Sequencer) : Prop where
  state : q'.state = q.state
  cursor : q'.cursor = q.cursor
  listCount : q'.listCount = q.listCount
  seek : q'.seek = q.seek

theorem Sequencer.issueCaption_stands (x : Slot) (e : CueEntry) : q.SameStand (q.issueCaption env x e).1 := by
  unfold Sequencer.issueCaption
  simp only
  split
  · split <;> exact ⟨rfl, rfl, rfl, rfl⟩
  · exact ⟨rfl, rfl, rfl, rfl⟩

/-- R54: an entry of index `cursor` is taken. -/
theorem Sequencer.issueSlot_issues {cursor : Nat} (h : ScreensFit q.active cursor) {x : Slot} (hx : x.index = cursor)
    (e : CueEntry) : Issues cursor q.active (q.issueSlot env now x e).2 (q.issueSlot env now x e).1.active
      ∧ q.SameStand (q.issueSlot env now x e).1 := by
  have hstand : q.SameStand q := ⟨rfl, rfl, rfl, rfl⟩
  unfold Sequencer.issueSlot
  split
  · exact ⟨h.passes, hstand⟩
  · split
    · exact ⟨h.passes, ⟨rfl, rfl, rfl, rfl⟩⟩
    · split
      · exact ⟨h.passes, hstand⟩
      · split
        · exact ⟨h.passes, ⟨rfl, rfl, rfl, rfl⟩⟩
        · split
          · exact ⟨q.issueClear_issues h e.channelOf, ⟨rfl, rfl, rfl, rfl⟩⟩
          · exact ⟨Sequencer.issueCaption_issues env h hx e, q.issueCaption_stands env x e⟩

/-- R54, R57: entries are taken from the head of the window, here the list. -/
theorem Sequencer.Fine.issue (l : List Slot) : ∀ q : Sequencer, ({ q with window := l } : Sequencer).Fine →
    q.state = .walking → q.Goes (Sequencer.issue env now l q) := by
  induction l with
  | nil => exact fun q h _ => h.goes rfl fun _ h => nomatch h
  | cons x rest ih =>
    intro q h hwalking
    unfold Sequencer.issue
    split
    · exact h.goes rfl fun _ h => nomatch h
    · next e _ =>
      have hrun : (x :: rest).map Slot.index = List.range' q.cursor (rest.length + 1) := h.run
      rw [List.map_cons, List.range'_succ] at hrun
      obtain ⟨hx, hrest⟩ := List.cons.inj hrun
      obtain ⟨hissues, hstand⟩ :=
        Sequencer.issueSlot_issues (q := { q with cursor := q.cursor + 1 }) env now h.screens hx e
      have hwithin : q.cursor + (rest.length + 1) ≤ q.listCount := h.within
      have hsixteen : rest.length + 1 ≤ 16 := h.sixteen
      generalize Sequencer.issueSlot { q with cursor := q.cursor + 1 } env now x e = one at hissues hstand
      have hone : ({ one.1 with window := rest } : Sequencer).Fine := by
        refine ⟨?_, Nat.le_of_succ_le hsixteen, ?_, ?_, ?_, fun hs => ?_, fun sk hsk => ?_⟩
        · exact hstand.listCount ▸ h.listCount
        · exact hrest.trans (congrArg (List.range' · rest.length) hstand.cursor.symm)
        · rw [show one.1.listCount = q.listCount from hstand.listCount]
          have : one.1.cursor + rest.length ≤ q.listCount := by
            rw [show one.1.cursor = q.cursor + 1 from hstand.cursor]
            omega
          exact this
        · exact hstand.cursor ▸ hissues.screens
        · exact absurd (hstand.state.trans hwalking) hs
        · have := (h.seek sk (hstand.seek ▸ hsk)).1
          rw [show q.state = .walking from hwalking] at this
          exact nomatch this
      have hmore := ih one.1 hone (hstand.state.trans hwalking)
      exact ⟨hmore.fine, hissues.serves.trans hmore.serves⟩

/-! ## The walk and the update (R40, R53 to R58) -/

theorem Sequencer.Fine.testEnd (h : q.Fine) : q.Goes q.testEnd := by
  unfold Sequencer.testEnd
  split
  · exact (h.of_screens rfl rfl rfl rfl rfl fun c => .refl _ : Sequencer.Fine { q with listEnd := true }).goes rfl
      fun o ho => by rw [List.mem_singleton.mp ho]; rfl
  · exact h.stays

theorem Sequencer.Fine.seek_none (h : q.Fine) (hwalking : q.state = .walking) : q.seek = none := by
  cases hsk : q.seek with
  | none => rfl
  | some sk =>
    have := (h.seek sk hsk).1
    rw [hwalking] at this
    exact nomatch this

theorem Sequencer.Fine.walk (h : q.Fine) (hwalking : q.state = .walking) : q.Goes (q.walk env now) := by
  have hexpired := h.expire now
  have hissued := hexpired.then
    (Sequencer.Fine.issue env now (q.expire now).1.window (q.expire now).1 hexpired.fine hwalking)
  have hended := hissued.then hissued.fine.testEnd
  obtain ⟨_, hwalks⟩ := q.walks env now
  exact hended.then (hended.fine.refill (hended.fine.seek_none (hwalks.state.trans hwalking)))

theorem Sequencer.Fine.update (h : q.Fine) : q.Goes (q.update env now) := by
  unfold Sequencer.update
  split
  · next hwalking => exact h.walk env now hwalking
  · exact h.seekUpdate env
  · exact h.stays
  · exact h.stays

/-- All the work a Sequencer can do keeps it fine, and what it sends serves its screens. -/
theorem Sequencer.Fine.does {a : Auditorium} (h : a.seq.Fine) {env : SeqEnv} {r : Sequencer × List SeqOut}
    (hr : Sequencer.Does a env r) : a.seq.Goes r := by
  cases hr with
  | seat target => exact h.seat env target
  | clearOrder => exact h.clearOrder env
  | update now => exact h.update env now
  | fault index => exact h.faultAt env index
  | entry index e => exact h.entryDone env index e
  | text cue bytes => exact h.textDone env cue bytes
  | textFails cue => exact h.textFailed env cue
  | scan index e => exact h.scanDone index e
  | lookback index e => exact h.lookbackDone env index e
  | retract c cue => exact h.retract c cue
  | mark i => exact (h.mapWindow fun x => by unfold markSlot; split <;> rfl).goes rfl fun _ h => nomatch h

end Walk

end Sys2Proof.Machine
end

section
/-! SUPPORT. What every move of an auditorium keeps of mixer, Builder, directive unit and screens. -/

namespace Sys2Proof.Machine

/-! ## A show that is not RUNNING (R33, R60) -/

/-- A Sequencer that follows nothing, with its cursor at 0 and nothing staged: at rest, or FAULTED by a late read. -/
structure Sequencer.AtRest (q : Sequencer) : Prop where
  state : q.state.isFollowing = false
  cursor : q.cursor = 0
  window : q.window = []
  seek : q.seek = none

theorem Sequencer.atRest_rested (q : Sequencer) : q.rested.AtRest := ⟨rfl, rfl, rfl, rfl⟩

/-- Beside an IDLE clock a Sequencer at rest stays so. -/
theorem Sequencer.AtRest.does {a : Auditorium} (h : a.seq.AtRest) (hclock : a.clock.state = .idle) {env : SeqEnv}
    {r : Sequencer × List SeqOut} (hr : Sequencer.Does a env r) : r.1.AtRest := by
  have hany (p : Slot → Bool) : ¬a.seq.window.any p = true := by
    rw [h.window]
    exact Bool.false_ne_true
  cases hr with
  | seat _ hc => exact absurd hclock hc
  | update _ hc => exact absurd hclock hc
  | clearOrder =>
    unfold Sequencer.clearOrder
    rw [h.state]
    exact h
  | fault index => exact ⟨rfl, h.cursor, rfl, rfl⟩
  | entry index e =>
    unfold Sequencer.entryDone
    rw [h.window]
    exact h
  | text cue bytes =>
    unfold Sequencer.textDone
    rw [if_neg (hany _)]
    split
    · exact h
    · exact ⟨h.state, h.cursor, h.window, h.seek⟩
  | textFails cue =>
    unfold Sequencer.textFailed
    rw [if_neg (hany _)]
    split
    · exact h
    · exact ⟨h.state, h.cursor, h.window, h.seek⟩
  | scan index e =>
    unfold Sequencer.scanDone
    rw [h.seek]
    exact h
  | lookback index e =>
    unfold Sequencer.lookbackDone
    rw [h.seek]
    exact h
  | retract c cue => exact ⟨h.state, h.cursor, h.window, h.seek⟩
  | mark i => exact ⟨h.state, h.cursor, by simp only [h.window, List.map_nil], h.seek⟩

/-- Clock and Sequencer of a show that is not RUNNING. -/
structure Quiet (c : Clock) (q : Sequencer) : Prop where
  clock : c.state = .idle
  seq : q.AtRest

/-! ## What every move keeps -/

/-- What every move keeps of an auditorium; `live` where the part is RUNNING. -/
structure Auditorium.Keeps (live : Bool) (a : Auditorium) : Prop where
  fine : a.seq.Fine
  quiet : a.unit.showState ≠ .running → Quiet a.clock a.seq
  binds : a.BindsCues → a.unit.showState = .halted
  mixer : a.mixer.Bounded
  builder : a.builder.Sized
  channels : a.unit.channels.Within
  tag : a.unit.tag.Sound
  airs : a.builder.Airs a.seq.active
  closing : a.unit.showState = .closing → 1 ≤ a.builder.closing
  dead : live = false → a.unit.showState = .dark ∨ a.unit.showState = .halted

theorem Builder.airs_of_empty {b : Builder} (h : b.keys = []) (active : Vector (List ActiveCue) 4) : b.Airs active :=
  ⟨by rw [h]; exact List.nodup_nil, fun x hx => by rw [h] at hx; exact nomatch hx⟩

theorem Builder.Airs.empty {b : Builder} {active : Vector (List ActiveCue) 4} (h : b.Airs active)
    (hdark : ∀ c : Channel, active[c] = []) : b.keys = [] := by
  refine List.eq_nil_iff_forall_not_mem.mpr fun x hx => ?_
  have := h.onScreen x hx
  rw [shown_dark (hdark x.1)] at this
  exact nomatch this

theorem Builder.sized_of_empty {b : Builder} (hqueue : b.queue = []) (hrecords : b.records = [])
    (hclosing : b.closing ≤ 4) : b.Sized where
  queue := by rw [hqueue]; exact Nat.zero_le _
  copies := fun e he => by rw [hqueue] at he; exact nomatch he
  countdown := fun r hr => by rw [hrecords] at hr; exact nomatch hr
  closing := hclosing
  starts := by rw [hqueue]; exact List.nodup_nil

section Keeps
variable {live : Bool} {a : Auditorium}

/-- A Sequencer put to rest, and a Builder without air records. -/
theorem Auditorium.keeps_of_rest (hseq : a.seq.AtRest) (hactive : ∀ c : Channel, a.seq.active[c] = [])
    (hlist : a.seq.listCount ≤ 65535) (hclock : a.unit.showState ≠ .running → a.clock.state = .idle)
    (hkeys : a.builder.keys = []) (hbuilder : a.builder.Sized) (hmixer : a.mixer.Bounded)
    (hchannels : a.unit.channels.Within) (htag : a.unit.tag.Sound) (hbinds : a.BindsCues → a.unit.showState = .halted)
    (hclosing : a.unit.showState = .closing → 1 ≤ a.builder.closing)
    (hdead : live = false → a.unit.showState = .dark ∨ a.unit.showState = .halted) : a.Keeps live where
  fine := Sequencer.fine_of_empty hlist (by rw [hseq.cursor]; exact Nat.zero_le _) hseq.window hseq.seek hactive
  quiet := fun hshow => ⟨hclock hshow, hseq⟩
  binds := hbinds
  mixer := hmixer
  builder := hbuilder
  channels := hchannels
  tag := htag
  airs := Builder.airs_of_empty hkeys _
  closing := hclosing
  dead := hdead

variable (h : a.Keeps live)
include h

theorem Auditorium.Keeps.not_running (hlive : live = false) : a.unit.showState ≠ .running := by
  obtain hs | hs := h.dead hlive <;> rw [hs] <;> exact fun h => nomatch h

/-- Of a show that is not RUNNING the screens are empty, and so are the air records (R101). -/
theorem Auditorium.Keeps.dark (hshow : a.unit.showState ≠ .running) :
    (∀ c : Channel, a.seq.active[c] = []) ∧ a.builder.keys = [] := by
  have hdark := h.fine.dark fun hwalking => by
    have := (h.quiet hshow).seq.state
    rw [hwalking] at this
    exact nomatch this
  exact ⟨hdark, h.airs.empty hdark⟩

/-- A move of the Sequencer, with what its Builder hears. -/
theorem Auditorium.Keeps.told {env : SeqEnv} {r : Sequencer × List SeqOut} (hr : Sequencer.Does a env r) :
    (a.told live r.1 r.2).Keeps live := by
  have hgoes := h.fine.does hr
  have hdeaf (htakes : ¬a.takes live = true) : a.unit.showState ≠ .running := fun hrunning => by
    cases live with
    | false => exact h.not_running rfl hrunning
    | true => exact htakes (by simp [Auditorium.takes, hrunning])
  have hbuilder : (a.told live r.1 r.2).builder.Sized ∧ (a.told live r.1 r.2).builder.Airs r.1.active := by
    unfold Auditorium.told
    simp only
    split
    · exact ⟨h.builder.heedAll h.channels.copies r.2, hgoes.serves _ _ h.airs⟩
    · next htakes => exact ⟨h.builder, Builder.airs_of_empty (h.dark (hdeaf htakes)).2 _⟩
  refine ⟨hgoes.fine, fun hshow => ⟨(h.quiet hshow).clock, (h.quiet hshow).seq.does (h.quiet hshow).clock hr⟩, h.binds,
    h.mixer, hbuilder.1, h.channels, h.tag, hbuilder.2, fun hclosing => ?_, h.dead⟩
  have htakes : ¬a.takes live = true := by
    have hc : a.unit.showState = .closing := hclosing
    simp [Auditorium.takes, hc]
  have hsame : (a.told live r.1 r.2).builder = a.builder := if_neg htakes
  rw [hsame]
  exact h.closing hclosing

end Keeps

end Sys2Proof.Machine
end

section
/-! SUPPORT. Every move of an auditorium keeps mixer, Builder and directive unit within their sizes (R76, R78, R91, R97
to R101, R113, R161, R167). -/

namespace Sys2Proof.Machine

/-! ## The binds under way (R157) -/

section Binds
variable {a b : Auditorium}

/-- A batch that waits for what the one before waited for, or for nothing. -/
theorem Auditorium.BindsCues.before (hshow : b.unit.showState = a.unit.showState)
    (hbatch : Batch.Follows a.unit.batch b.unit.batch) (h : b.BindsCues) : a.BindsCues := by
  obtain h | ⟨y, tag, tagReset, hy, hphase⟩ | ⟨y, tag, selector, held, tagReset, hy, hphase⟩ := h
  · exact .inl (hshow ▸ h)
  · obtain hfree | ⟨x, hx, hsame⟩ := hbatch y hy
    · rw [hphase] at hfree; exact hfree.elim
    · exact .inr (.inl ⟨x, tag, tagReset, hx, hsame ▸ hphase⟩)
  · obtain hfree | ⟨x, hx, hsame⟩ := hbatch y hy
    · rw [hphase] at hfree; exact hfree.elim
    · exact .inr (.inr ⟨x, tag, selector, held, tagReset, hx, hsame ▸ hphase⟩)

/-- Of a batch that waits for no claim and no header only a HALTED show binds CUES. -/
theorem Auditorium.BindsCues.halted (hfree : ∀ y, b.unit.batch = some y → y.phase.isFree) (h : b.BindsCues) :
    b.unit.showState = .halted := by
  obtain h | ⟨y, _, _, hy, hphase⟩ | ⟨y, _, _, _, _, hy, hphase⟩ := h
  · exact h
  · have := hfree y hy
    rw [hphase] at this
    exact this.elim
  · have := hfree y hy
    rw [hphase] at this
    exact this.elim

theorem Auditorium.BindsCues.halted_of_none (hnone : b.unit.batch = none) (h : b.BindsCues) :
    b.unit.showState = .halted := h.halted fun y hy => by rw [hnone] at hy; exact nomatch hy

/-- A claim may bind CUES in HALTED alone (R157). -/
theorem Auditorium.BindsCues.of_claim {tag : Nat} {role : Role} {selector : Byte} {held tagReset : Bool}
    (h : Auditorium.BindsCues { a with unit := { a.unit with batch := a.unit.batch.map fun b =>
      { b with phase := .claiming tag role selector held (bindAllowed role a.unit.showState) tagReset } } }) :
    a.unit.showState = .halted := by
  obtain h | ⟨y, _, _, hy, hphase⟩ | ⟨y, _, _, _, _, hy, hphase⟩ := h
  · exact h
  · obtain ⟨x, _, rfl⟩ := Option.map_eq_some_iff.mp hy
    exact nomatch hphase
  · obtain ⟨x, _, rfl⟩ := Option.map_eq_some_iff.mp hy
    obtain ⟨_, rfl, _, _, hallowed, _⟩ := BatchPhase.claiming.inj hphase
    exact eq_of_beq hallowed

end Binds

/-! ## Every move -/

section Moves
variable {live : Bool} {k : Aud} {a b : Auditorium} (h : a.Keeps live)
include h

theorem Auditorium.Keeps.batch {u : DirectiveUnit} (hshow : u.showState = a.unit.showState) (htag : u.tag = a.unit.tag)
    (hchannels : u.channels = a.unit.channels) (hbatch : Batch.Follows a.unit.batch u.batch) :
    Auditorium.Keeps live { a with unit := u } where
  fine := h.fine
  quiet := fun hs => h.quiet (hshow ▸ hs)
  binds := fun hb => hshow.trans (h.binds (Auditorium.BindsCues.before (b := { a with unit := u }) hshow hbatch hb))
  mixer := h.mixer
  builder := h.builder
  channels := hchannels ▸ h.channels
  tag := htag ▸ h.tag
  airs := h.airs
  closing := fun hs => h.closing (hshow.symm.trans hs)
  dead := fun hlive => hshow ▸ h.dead hlive

/-- In HALTED a Sequencer with a new list count, or put to rest (R62, R137). -/
theorem Auditorium.Keeps.halted (hshow : a.unit.showState = .halted) {q : Sequencer} (hseq : q.AtRest)
    (hactive : ∀ c : Channel, q.active[c] = []) (hlist : q.listCount ≤ 65535) :
    Auditorium.Keeps live { a with seq := q } := by
  have hrunning : a.unit.showState ≠ .running := by rw [hshow]; exact fun h => nomatch h
  exact Auditorium.keeps_of_rest hseq hactive hlist (fun hs => (h.quiet hs).clock) (h.dark hrunning).2 h.builder h.mixer
    h.channels h.tag h.binds h.closing h.dead

/-- A closing frame, of a show that the last one makes HALTED (R113). -/
theorem Auditorium.Keeps.close (hshow : a.unit.showState = .closing) (rec : BoundaryRecord)
    (narration : List AirSection) : Auditorium.Keeps live
      { a with
        builder := (a.builder.buildClosing k a.unit.channels rec narration).1
        unit := { a.unit with showState :=
          if (a.builder.buildClosing k a.unit.channels rec narration).1.closing = 0 then .halted else .closing } } := by
  have hrunning : a.unit.showState ≠ .running := by rw [hshow]; exact fun h => nomatch h
  have hunbound : ¬a.BindsCues := fun hb => by
    have := h.binds hb
    rw [hshow] at this
    exact nomatch this
  have hquiet := h.quiet hrunning
  have hkeys : (a.builder.buildClosing k a.unit.channels rec narration).1.keys = [] := (h.dark hrunning).2
  refine ⟨h.fine, fun _ => hquiet, fun hb => ?_, h.mixer, h.builder.buildClosing k a.unit.channels rec narration,
    h.channels, h.tag, Builder.airs_of_empty hkeys _, fun hs => ?_, fun hlive => ?_⟩
  · obtain hs | hcounting | hclaiming := hb
    · exact hs
    · exact absurd (.inr (.inl hcounting)) hunbound
    · exact absurd (.inr (.inr hclaiming)) hunbound
  · refine Nat.one_le_iff_ne_zero.mpr fun hzero => ?_
    have hhalted : (if (a.builder.buildClosing k a.unit.channels rec narration).1.closing = 0 then ShowState.halted
      else .closing) = .closing := hs
    rw [if_pos hzero] at hhalted
    exact nomatch hhalted
  · obtain hs | hs := h.dead hlive <;> rw [hshow] at hs <;> exact nomatch hs

/-- RUN of a HALTED show (R159). -/
theorem Auditorium.Keeps.run (hlive : live = true) (hfree : ∀ y, a.unit.batch = some y → y.phase.isFree) :
    a.run.Keeps live :=
  Auditorium.keeps_of_rest ⟨rfl, rfl, rfl, rfl⟩ noActive_channel h.fine.listCount (fun hs => absurd rfl hs) rfl
    (Builder.sized_of_empty rfl rfl (Nat.zero_le _)) h.mixer.run h.channels h.tag
    (fun hb => Auditorium.BindsCues.halted (b := a.run) hfree hb) (fun hs => nomatch hs)
    fun hdead => by rw [hlive] at hdead; exact nomatch hdead

theorem Auditorium.Keeps.halt (hshow : a.unit.showState = .running) (g : a.Halts b) : b.Keeps live := by
  obtain ⟨q, hseq, hlist⟩ := g.seq
  have hcopies := h.channels.copies
  have hmixer : b.mixer.Bounded := by
    obtain hm | hm := g.mixer <;> rw [hm]
    · exact h.mixer.halt
    · exact h.mixer.markResync.halt
  have hunbound : ¬a.BindsCues := fun hb => by
    have := h.binds hb
    rw [hshow] at this
    exact nomatch this
  refine Auditorium.keeps_of_rest (hseq ▸ q.atRest_rested) (fun c => ?active) ?list (fun _ => g.idle) ?keys ?sized
    hmixer ?channels ?tag (fun hb => ?binds) (fun _ => ?closing) fun hlive => absurd hshow (h.not_running hlive)
  case active => rw [hseq]; exact noActive_channel c
  case list => rw [hseq]; exact hlist ▸ h.fine.listCount
  case keys => rw [g.builder]; rfl
  case sized => rw [g.builder]; exact Builder.sized_of_empty rfl rfl (Nat.succ_le_succ hcopies)
  case channels => rw [g.unit]; exact h.channels
  case tag => rw [g.unit]; exact h.tag
  case closing => rw [g.builder]; exact Nat.le_add_left 1 _
  case binds =>
    unfold Auditorium.BindsCues at hb
    rw [g.unit] at hb
    obtain hs | hcounting | hclaiming := hb
    · exact nomatch hs
    · exact absurd (.inr (.inl hcounting)) hunbound
    · exact absurd (.inr (.inr hclaiming)) hunbound

theorem Auditorium.Keeps.becomeHalted (hdark : live = false ∨ a.unit.showState = .dark) :
    (a.becomeHalted k).Keeps live := by
  have hrunning : a.unit.showState ≠ .running := by
    obtain hlive | hshow := hdark
    · exact h.not_running hlive
    · rw [hshow]; exact fun h => nomatch h
  have hquiet := h.quiet hrunning
  exact Auditorium.keeps_of_rest hquiet.seq (h.dark hrunning).1 h.fine.listCount (fun _ => hquiet.clock)
    (h.dark hrunning).2 h.builder h.mixer.becomeHalted (ChannelSettings.within_initial k) trivial (fun _ => rfl)
    (fun hs => nomatch hs) fun _ => .inr rfl

theorem Auditorium.Keeps.becomeDark : a.becomeDark.Keeps live :=
  Auditorium.keeps_of_rest ⟨rfl, rfl, rfl, rfl⟩ noActive_channel (Nat.zero_le _) (fun _ => a.clock.toIdle_state) rfl
    (Builder.sized_of_empty rfl rfl (Nat.zero_le _)) h.mixer.dark h.channels trivial
    (fun hb => Auditorium.BindsCues.halted_of_none (b := a.becomeDark) rfl hb) (fun hs => nomatch hs) fun _ => .inl rfl

theorem Auditorium.Keeps.partStop : a.partStop.Keeps live :=
  Auditorium.keeps_of_rest ⟨rfl, rfl, rfl, rfl⟩ noActive_channel (Nat.zero_le _) (fun _ => a.clock.toIdle_state) rfl
    (Builder.sized_of_empty rfl rfl (Nat.zero_le _)) h.mixer.partChange h.channels trivial
    (fun hb => Auditorium.BindsCues.halted_of_none (b := a.partStop) rfl hb) (fun hs => nomatch hs) fun _ => .inl rfl

theorem Auditorium.Keeps.partStart (hlive : live = false) : a.partStart.Keeps live := by
  have hclosing : a.unit.showState ≠ .closing := by
    obtain hs | hs := h.dead hlive <;> rw [hs] <;> exact fun h => nomatch h
  exact Auditorium.keeps_of_rest ⟨rfl, rfl, rfl, rfl⟩ noActive_channel (Nat.zero_le _) (fun _ => rfl) rfl
    (Builder.sized_of_empty rfl rfl (Nat.zero_le _)) h.mixer.partChange h.channels h.tag h.binds
    (fun hs => absurd hs hclosing) h.dead

omit h in
theorem Auditorium.keeps_initial (live : Bool) (k : Aud) : (Auditorium.initial k).Keeps live :=
  Auditorium.keeps_of_rest ⟨rfl, rfl, rfl, rfl⟩ noActive_channel (Nat.zero_le _) (fun _ => rfl) rfl
    Builder.bounded_initial.sized Mixer.bounded_initial (ChannelSettings.within_initial k) trivial
    (fun hb => Auditorium.BindsCues.halted_of_none (b := Auditorium.initial k) rfl hb) (fun hs => nomatch hs)
    fun _ => .inl rfl

theorem Auditorium.Keeps.move (hmove : Auditorium.Move live k a b) : b.Keeps live := by
  have hkept := h
  obtain ⟨fine, quiet, binds, mixer, builder, channels, tag, airs, closing, dead⟩ := hkept
  cases hmove with
  | book => exact ⟨fine, quiet, binds, mixer, builder, channels, tag, airs, closing, dead⟩
  | batch u hshow htag hchannels hbatch => exact h.batch hshow htag hchannels hbatch
  | claim =>
    exact ⟨fine, quiet, fun hb => Auditorium.BindsCues.of_claim (a := a) hb, mixer, builder, channels, tag, airs,
      closing, dead⟩
  | count t tagReset hb => exact ⟨fine, quiet, fun _ => binds hb, mixer, builder, channels, tag, airs, closing, dead⟩
  | tag t ht => exact ⟨fine, quiet, binds, mixer, builder, channels, ht tag, airs, closing, dead⟩
  | channels c hc => exact ⟨fine, quiet, binds, mixer, builder, hc, tag, airs, closing, dead⟩
  | receiver => exact ⟨fine, quiet, binds, mixer, builder, channels, tag, airs, closing, dead⟩
  | clock c _ hidle =>
    exact ⟨fine, fun hs => ⟨hidle.mpr (quiet hs).clock, (quiet hs).seq⟩, binds, mixer, builder, channels, tag, airs,
      closing, dead⟩
  | mixer m hm => exact ⟨fine, quiet, binds, hm mixer, builder, channels, tag, airs, closing, dead⟩
  | link => exact ⟨fine, quiet, binds, mixer, builder, channels, tag, airs, closing, dead⟩
  | signal =>
    exact ⟨fine, quiet, binds, mixer, builder.signal, channels, tag, ⟨airs.distinct, airs.onScreen⟩, closing, dead⟩
  | sequencer env r hr => exact h.told hr
  | newList hb => exact h.halted (binds hb) a.seq.atRest_rested noActive_channel fine.listCount
  | list n hb hn =>
    have hrunning : a.unit.showState ≠ .running := by rw [binds hb]; exact fun h => nomatch h
    obtain ⟨hstate, hcursor, hwindow, hseek⟩ := (quiet hrunning).seq
    exact h.halted (binds hb) ⟨hstate, hcursor, hwindow, hseek⟩ (h.dark hrunning).1 hn
  | build rec narration =>
    obtain ⟨hkeys, hsized⟩ := Builder.build_keeps (b := a.builder) k a.unit.channels channels a.seq.active rec narration
    exact ⟨fine, quiet, binds, mixer, hsized builder, channels, tag,
      ⟨hkeys ▸ airs.distinct, fun x hx => airs.onScreen x (hkeys ▸ hx)⟩, closing, dead⟩
  | close rec narration hshow => exact h.close hshow rec narration
  | run hlive _ hfree => exact h.run hlive hfree
  | halt b hshow g => exact h.halt hshow g
  | becomeHalted hdark => exact h.becomeHalted hdark
  | becomeDark => exact h.becomeDark
  | partStart hlive => exact h.partStart hlive
  | partStop => exact h.partStop
  | reset => exact Auditorium.keeps_initial live k

end Moves

/-! ## From the model's predicates and back -/

theorem Auditorium.keeps_of_carries {live : Bool} {a : Auditorium} (hbounded : a.seq.Bounded) (hfollows : a.Follows)
    (hmixer : a.mixer.Bounded) (hbuilder : a.builder.Bounded) (hchannels : a.unit.channels.Within)
    (htag : a.unit.tag.Sound) (hcarries : a.Carries) (hdead : live = false → a.unit.showState = .dark) :
    a.Keeps live where
  fine := Auditorium.fine hbounded hfollows hcarries
  quiet := fun hs => by
    obtain ⟨hclock, hstate, hcursor, hwindow, hseek⟩ := hfollows.rest hs
    exact ⟨hclock, by rw [hstate]; rfl, hcursor, hwindow, hseek⟩
  binds := by
    rintro (hs | ⟨y, tag, tagReset, hy, hphase⟩ | ⟨y, tag, selector, held, tagReset, hy, hphase⟩)
    · exact hs
    · exact hfollows.counting y tag tagReset hy hphase
    · exact hfollows.claiming y tag selector held tagReset hy hphase
  mixer := hmixer
  builder := hbuilder.sized
  channels := hchannels
  tag := htag
  airs :=
    { distinct := by
        rw [Builder.keys, List.map_map]
        exact hcarries.records
      onScreen := fun x hx => by
        obtain ⟨r, hr, rfl⟩ := List.mem_map.mp hx
        obtain ⟨y, hy, hcue⟩ := hcarries.onScreen r hr
        exact List.mem_map.mpr ⟨y, hy, hcue⟩ }
  closing := hcarries.closing
  dead := fun hlive => .inl (hdead hlive)

theorem Auditorium.Keeps.carries {live : Bool} {a : Auditorium} (h : a.Keeps live) : a.Carries where
  distinct := h.fine.screens.distinct
  below := fun c y hy => h.fine.screens.below c y.cue (List.mem_map_of_mem hy)
  walking := h.fine.dark
  records := by
    have hdistinct := h.airs.distinct
    rw [Builder.keys, List.map_map] at hdistinct
    exact hdistinct
  onScreen := fun r hr => List.mem_map.mp (h.airs.onScreen r.key (List.mem_map_of_mem hr))
  rest := fun hs => ⟨List.map_eq_nil_iff.mp (h.dark hs).2, (h.dark hs).1⟩
  looking := fun sk items hsk hitems => by
    obtain ⟨_, _, hfits⟩ := h.fine.seek sk hsk
    exact hfits.looking items hitems
  closing := h.closing

/-- Settles O57: every move keeps the sizes, and the air records beside the screens. -/
theorem everyStepKeepsMixersBuildersAndUnitsBounded : Obligations.EveryStepKeepsMixersBuildersAndUnitsBounded := by
  unfold Obligations.EveryStepKeepsMixersBuildersAndUnitsBounded
  intro s t hsound hseq hs hstep k
  obtain ⟨hbounded, hfollows⟩ := hseq k
  obtain ⟨hmixer, hbuilder, hchannels, htag, hcarries⟩ := hs k
  have hdead : s.live = false → (s.aud k).unit.showState = .dark := fun hlive =>
    hsound.dark (of_decide_eq_false hlive) k
  have hkeeps := Auditorium.keeps_of_carries hbounded hfollows hmixer hbuilder hchannels htag hcarries hdead
  have h := step_keeps (P := Auditorium.Keeps s.live) hstep (fun _ _ hmove h => h.move hmove) hkeeps
  exact ⟨h.mixer, h.builder.bounded (h.airs.few h.fine.screens.four), h.channels, h.tag, h.carries⟩

end Sys2Proof.Machine
end
